-- ==== Sys2Proof/Word.lean ====
section
/-! DEFINITION. The fixed widths of the block (00_scope.md R8). -/

namespace Sys2Proof

/-- A channel byte, and a register datum: `DATA_W` = 8 bits (R8). -/
abbrev Byte := BitVec 8

/-- A register address as the wire gives it: `ADDR_W` = 8 bits (R8). -/
abbrev Addr8 := BitVec 8

/-- A transfer count: `CNT_W` = 13 bits (R8). -/
abbrev Count := BitVec 13

/-- A command selector: `SEL_W` = 2 bits (R8). -/
abbrev Selector := BitVec 2

end Sys2Proof
end

