-- ==== Sys2Proof/Syntax.lean ====
section
/-! DEFINITION. The commands of the block, one constructor for each row of opcode_table.json, and the
assembler lines of 30_encoding.md R52. -/

namespace Sys2Proof

/-- The two address spaces of the platform register file (10_state.md R23). -/
inductive Space where
  | io
  | memory
deriving DecidableEq, Repr

/-- The direction of a register access (60_exceptions.md R82). -/
inductive Direction where
  | read
  | write
deriving DecidableEq, Repr

/-- A command, without its payload (30_encoding.md R43, R44). `c` is the count of the small form, `n` the
count of the extended form (`c ++ l` on the wire), `a` the register address.  The payload of a write is
taken from the receive port while the command executes (41_accessor.md R64). -/
inductive Instr where
  /-- READIO8.S (41_accessor.md R68). -/
  | readIO8S (c : BitVec 5) (a : Addr8)
  /-- READIO8.X (R68). -/
  | readIO8X (n : Count) (a : Addr8)
  /-- READMEM8.S (R69). -/
  | readMem8S (c : BitVec 5) (a : Addr8)
  /-- READMEM8.X (R69). -/
  | readMem8X (n : Count) (a : Addr8)
  /-- WRITEIO8.S (R70). -/
  | writeIO8S (c : BitVec 5) (a : Addr8)
  /-- WRITEIO8.X (R70). -/
  | writeIO8X (n : Count) (a : Addr8)
  /-- WRITEMEM8.S (R71). -/
  | writeMem8S (c : BitVec 5) (a : Addr8)
  /-- WRITEMEM8.X (R71). -/
  | writeMem8X (n : Count) (a : Addr8)
deriving DecidableEq, Repr

/-- The space a command accesses (30_encoding.md R42, the table's last column). -/
def Instr.space : Instr → Space
  | .readIO8S _ _ | .readIO8X _ _ | .writeIO8S _ _ | .writeIO8X _ _ => .io
  | .readMem8S _ _ | .readMem8X _ _ | .writeMem8S _ _ | .writeMem8X _ _ => .memory

/-- The direction of a command (R42). -/
def Instr.direction : Instr → Direction
  | .readIO8S _ _ | .readIO8X _ _ | .readMem8S _ _ | .readMem8X _ _ => .read
  | .writeIO8S _ _ | .writeIO8X _ _ | .writeMem8S _ _ | .writeMem8X _ _ => .write

/-- The transfer count of a command, as 13 bits: the small form's is zero-extended (R46). -/
def Instr.count : Instr → Count
  | .readIO8S c _ | .readMem8S c _ | .writeIO8S c _ | .writeMem8S c _ => c.setWidth 13
  | .readIO8X n _ | .readMem8X n _ | .writeIO8X n _ | .writeMem8X n _ => n

/-- The register address of a command (R47). -/
def Instr.address : Instr → Addr8
  | .readIO8S _ a | .readIO8X _ a | .readMem8S _ a | .readMem8X _ a => a
  | .writeIO8S _ a | .writeIO8X _ a | .writeMem8S _ a | .writeMem8X _ a => a

/-- Whether a command is in the small form, `m = 1` (R43, R44). -/
def Instr.isSmall : Instr → Bool
  | .readIO8S _ _ | .readMem8S _ _ | .writeIO8S _ _ | .writeMem8S _ _ => true
  | .readIO8X _ _ | .readMem8X _ _ | .writeIO8X _ _ | .writeMem8X _ _ => false

/-- How many payload bytes follow a command on the receive port (R45, R48). -/
def Instr.payloadLength (i : Instr) : Nat :=
  match i.direction with
  | .read => 0
  | .write => i.count.toNat

/-- A command as the host sends it: with its payload (R43, R44, R48). -/
structure Transaction where
  instr : Instr
  payload : List Byte
deriving DecidableEq, Repr

/-- The four mnemonics of the assembler notation (R52). -/
inductive Mnemonic where
  | readIO8
  | readMem8
  | writeIO8
  | writeMem8
deriving DecidableEq, Repr

/-- The two form suffixes `.S` and `.X` (R52). -/
inductive FormSuffix where
  | small
  | extended
deriving DecidableEq, Repr

/-- One line of the assembler notation: `<MNEMONIC>[.S|.X] <address>, <count> [: <payload byte> ...]` (R52). -/
structure AsmLine where
  mnemonic : Mnemonic
  suffix : Option FormSuffix
  address : Nat
  count : Nat
  payload : List Byte
deriving DecidableEq, Repr

end Sys2Proof
end

