-- ==== Sys2Proof/WellFormed.lean ====
section
/-! DEFINITION. Which terms of the syntax the spec allows.  Every `Instr` is well formed: its fields have the
widths of the wire (30_encoding.md R49: no encoding is illegal).  What can be ill formed is a transaction whose
payload has the wrong length (R48) and an assembler line (R52). -/

namespace Sys2Proof

/-- The payload of a write has exactly `count` bytes, a read has none (30_encoding.md R45, R48). -/
def Transaction.wf (t : Transaction) : Bool :=
  t.payload.length == t.instr.payloadLength

/-- Whether a mnemonic names a write command (R52). -/
def Mnemonic.isWrite : Mnemonic → Bool
  | .readIO8 | .readMem8 => false
  | .writeIO8 | .writeMem8 => true

/-- `<address>` is 0 to 255 (R52). -/
def AsmLine.addressOk (l : AsmLine) : Bool := decide (l.address ≤ 255)

/-- `<count>` is 0 to 8191, and at most 31 where `.S` forces the small form (R52). -/
def AsmLine.countOk (l : AsmLine) : Bool :=
  match l.suffix with
  | some .small => decide (l.count ≤ 31)
  | _ => decide (l.count ≤ 8191)

/-- The payload list appears only with `WRITE*` commands and has exactly `<count>` bytes (R52). -/
def AsmLine.payloadOk (l : AsmLine) : Bool :=
  l.payload.length == (if l.mnemonic.isWrite then l.count else 0)

/-- All the checks of R52 on a line. -/
def AsmLine.wf (l : AsmLine) : Bool := l.addressOk && l.countOk && l.payloadOk

end Sys2Proof
end

