-- ==== Sys2Proof/Decode.lean ====
section
/-! DEFINITION. The wire format of a command (30_encoding.md R41 to R52): the fields of the header byte, the
decoder on a list of bytes in wire order, the encoder, and the expansion of an assembler line. -/

namespace Sys2Proof

/-- `sel = h[7:6]` (R41). -/
def headerSel (h : Byte) : Selector := h.extractLsb' 6 2

/-- `m = h[5]`: true for the small form (R41). -/
def headerSmall (h : Byte) : Bool := h.getLsbD 5

/-- `c = h[4:0]` (R41). -/
def headerCount (h : Byte) : BitVec 5 := h.extractLsb' 0 5

/-- The count of the small form, `zext_13(h[4:0])` (R46). -/
def smallCount (h : Byte) : Count := (headerCount h).setWidth 13

/-- The count of the extended form, `h[4:0] ++ lo` (R46). -/
def extendedCount (h lo : Byte) : Count := headerCount h ++ lo

/-- The small-form command of a selector (R42, R43). -/
def smallInstr (sel : Selector) (c : BitVec 5) (a : Addr8) : Instr :=
  match sel.getLsbD 1, sel.getLsbD 0 with
  | false, false => .readIO8S c a
  | false, true => .readMem8S c a
  | true, false => .writeIO8S c a
  | true, true => .writeMem8S c a

/-- The extended-form command of a selector (R42, R44). -/
def extendedInstr (sel : Selector) (n : Count) (a : Addr8) : Instr :=
  match sel.getLsbD 1, sel.getLsbD 0 with
  | false, false => .readIO8X n a
  | false, true => .readMem8X n a
  | true, false => .writeIO8X n a
  | true, true => .writeMem8X n a

/-- Why a list of bytes holds no whole command.  No byte value is illegal (R49); the only reason is that
bytes are still missing. -/
inductive DecodeReject where
  /-- No byte at all: the block stays in `S_HDR`. -/
  | noHeader
  /-- An extended header and nothing after it: the block would wait in `S_CNTLO`. -/
  | noCountLow
  /-- The address byte is missing: the block would wait in `S_ADDR`. -/
  | noAddress
deriving DecidableEq, Repr

/-- Decode the command at the front of a list of bytes in wire order, and give the bytes after it
(R43 to R47).  Total: a list that holds a whole command decodes. -/
def decode : List Byte → Except DecodeReject (Instr × List Byte)
  | [] => .error .noHeader
  | h :: r =>
    if headerSmall h then
      match r with
      | [] => .error .noAddress
      | a :: rest => .ok (smallInstr (headerSel h) (headerCount h) a, rest)
    else
      match r with
      | [] => .error .noCountLow
      | [_] => .error .noAddress
      | lo :: a :: rest => .ok (extendedInstr (headerSel h) (extendedCount h lo) a, rest)

/-! ## The encoder -/

/-- The selector of a command (R42). -/
def Instr.selector : Instr → Selector
  | .readIO8S _ _ | .readIO8X _ _ => 0b00#2
  | .readMem8S _ _ | .readMem8X _ _ => 0b01#2
  | .writeIO8S _ _ | .writeIO8X _ _ => 0b10#2
  | .writeMem8S _ _ | .writeMem8X _ _ => 0b11#2

/-- The two bytes `sel 1 c`, `a` of the small form (R43). -/
def encodeSmall (sel : Selector) (c : BitVec 5) (a : Addr8) : List Byte :=
  [sel ++ 1#1 ++ c, a]

/-- The three bytes `sel 0 n[12:8]`, `n[7:0]`, `a` of the extended form (R44). -/
def encodeExtended (sel : Selector) (n : Count) (a : Addr8) : List Byte :=
  [sel ++ 0#1 ++ n.extractLsb' 8 5, n.extractLsb' 0 8, a]

/-- The bytes of a command in wire order, payload apart (R43, R44). -/
def encode (i : Instr) : List Byte :=
  match i with
  | .readIO8S c a | .readMem8S c a | .writeIO8S c a | .writeMem8S c a => encodeSmall i.selector c a
  | .readIO8X n a | .readMem8X n a | .writeIO8X n a | .writeMem8X n a => encodeExtended i.selector n a

/-- The bytes the host sends for a transaction: command, then payload (R43, R44, R48). -/
def Transaction.bytes (t : Transaction) : List Byte := encode t.instr ++ t.payload

/-! ## The assembler notation -/

/-- The small-form command of a mnemonic (R52). -/
def Mnemonic.small (m : Mnemonic) (c : BitVec 5) (a : Addr8) : Instr :=
  match m with
  | .readIO8 => .readIO8S c a
  | .readMem8 => .readMem8S c a
  | .writeIO8 => .writeIO8S c a
  | .writeMem8 => .writeMem8S c a

/-- The extended-form command of a mnemonic (R52). -/
def Mnemonic.extended (m : Mnemonic) (n : Count) (a : Addr8) : Instr :=
  match m with
  | .readIO8 => .readIO8X n a
  | .readMem8 => .readMem8X n a
  | .writeIO8 => .writeIO8X n a
  | .writeMem8 => .writeMem8X n a

/-- The form a line takes: its suffix, and without one `.S` when count ≤ 31 and `.X` otherwise (R52). -/
def AsmLine.form (l : AsmLine) : FormSuffix :=
  match l.suffix with
  | some f => f
  | none => if l.count ≤ 31 then .small else .extended

/-- What a line stands for, or nothing where the line is ill formed (R52). -/
def AsmLine.assemble (l : AsmLine) : Option Transaction :=
  if l.wf then
    let a := BitVec.ofNat 8 l.address
    match l.form with
    | .small => some ⟨l.mnemonic.small (BitVec.ofNat 5 l.count) a, l.payload⟩
    | .extended => some ⟨l.mnemonic.extended (BitVec.ofNat 13 l.count) a, l.payload⟩
  else none

/-! ## Opcode-table words -/

/-- The three bytes of the longest command, from a number whose bit 0 is the least significant bit of the
first byte, a later byte's bits counting on from it, and all bits from `nbits` up zero. -/
def tableBytes (nbits w : Nat) : List Byte :=
  let v := w % 2 ^ nbits
  [BitVec.ofNat 8 v, BitVec.ofNat 8 (v / 256), BitVec.ofNat 8 (v / 65536)]

/-- The command the decoder reads from a word numbered as opcode_table.json numbers its bits. -/
def decodeTableWord (nbits w : Nat) : Option Instr :=
  match decode (tableBytes nbits w) with
  | .ok (i, _) => some i
  | .error _ => none

/-- The bytes on the receive port that make the block run the command of a table word: the command's own
bytes, then a payload of zeros where it is a write. -/
def tableCommandBytes (nbits w : Nat) : List Byte :=
  match decodeTableWord nbits w with
  | some i => encode i ++ List.replicate i.payloadLength 0#8
  | none => tableBytes nbits w

end Sys2Proof
end

