-- ==== Sys2Proof/Config.lean ====
section
/-! DEFINITION. What the spec leaves to the platform and the model does not choose: free values without a
body (00_scope.md R9). -/

namespace Sys2Proof

/-- One register access as the access logs of 95_test_vectors.md list them: `R(space, addr) = byte` and
`W(space, addr, byte)`. -/
inductive Access where
  | read (sp : Space) (a : Addr8) (v : Byte)
  | write (sp : Space) (a : Addr8) (v : Byte)
deriving DecidableEq, Repr

/-- `rfRead` (R9, 20_memory.md R31, 93_implementation_defined.md #2): the byte the platform returns for a
read, a fresh draw per access.  FREE VALUE: it has no body.  Its first argument is the log of all accesses
performed so far, which grows at every access, so that no two reads of a run share an argument. -/
opaque Config.rfRead : List Access → Space → Addr8 → Byte

/-- By how much the platform's address port is wider than 8 bits.  FREE VALUE (R9, 92_eei_decisions.md D4). -/
opaque Config.rfAddrExtra : Nat

/-- `RF_ADDR_W`: the width of the platform's address port, at least 8 (R9, D4). -/
def Config.rfAddrWidth : Nat := 8 + Config.rfAddrExtra

end Sys2Proof
end

