-- ==== Sys2Proof/Machine/State.lean ====
section
/-! DEFINITION. The state of the block and of the agents around it (00_scope.md R7, 10_state.md R14 to R25):
plain data throughout. -/

namespace Sys2Proof.Machine

/-- The state register `st`: seven symbolic states without a numeric encoding (R14). -/
inductive St where
  /-- `S_HDR`: awaiting a header; the command boundary. -/
  | hdr
  /-- `S_CNTLO`: extended form, awaiting the count-low byte. -/
  | cntLo
  /-- `S_ADDR`: awaiting the address byte. -/
  | addr
  /-- `S_RD_SAMPLE`: sample the register. -/
  | rdSample
  /-- `S_RD_SEND`: transmit the sampled byte. -/
  | rdSend
  /-- `S_WR_RECV`: receive a payload byte. -/
  | wrRecv
  /-- `S_WR_WRITE`: write the payload byte. -/
  | wrWrite
deriving DecidableEq, Repr

/-- What the platform has at one address.  These are the named register-file configurations of
95_test_vectors.md, taken address by address, and the parameters `rfValid` and `rfAlias` (00_scope.md R9). -/
inductive RegKind where
  /-- DRAW: every read is a free value, a write is recorded and nothing is assumed of its effect (R31, R32). -/
  | volatile
  /-- PLAIN: one byte of storage. -/
  | storage
  /-- `rfAlias`: the storage byte of address `a` of space `sp` under a second name (R33, D11). -/
  | sharedWith (sp : Space) (a : Addr8)
  /-- FIFO(q): a write appends to the queue, a read removes its head. -/
  | fifo
  /-- `rfValid` is false (R34, R82), or the access reaches the platform's transport, clock or reset
  registers and the parameters give it no meaning (R100). -/
  | refused
deriving DecidableEq, Repr

/-- The platform's register map: the kind of each listed address of each space, and that of every other.
With 512 addresses in all it can be any function from `Space` and `Addr8` to kinds. -/
structure Platform where
  others : RegKind
  listed : List ((Space × Addr8) × RegKind)
deriving DecidableEq, Repr

/-- The choices an external reset leaves open (70_reset_and_hazards.md R93). -/
structure ResetDraw where
  /-- Whether the access or the send in flight is performed. -/
  performed : Bool
  /-- `resetChannelEffect`, towards the block: `none`, the transport keeps what it holds; `some l`, it holds `l`. -/
  rxAfter : Option (List Byte)
  /-- `resetChannelEffect`, towards the host, likewise. -/
  txAfter : Option (List Byte)
deriving DecidableEq, Repr

/-- One move of one agent (R7). -/
inductive Move where
  /-- The core takes the one row of the next-state table that is enabled, or waits (42_dispatch.md R76). -/
  | coreRow
  /-- The host sends a byte; the transport holds it for the block (R78, R79). -/
  | hostSend (b : Byte)
  /-- The host takes the oldest byte the transport holds for it. -/
  | hostTake
  /-- The transport sets `tx_ready` (R21). -/
  | setTxReady (v : Bool)
  /-- The platform sets `rf_ack` (R21). -/
  | setRfAck (v : Bool)
  /-- `rst` is asserted (R92, R93). -/
  | assertReset (d : ResetDraw)
  /-- `rst` is released. -/
  | releaseReset
deriving DecidableEq, Repr

/-- The machine: the block's registers, its pins, the transport, the platform, and the schedule of moves. -/
structure State where
  /-- The state register (R14). -/
  st : St
  /-- The command register (R15). -/
  cmd : Selector
  /-- The transfer counter (R16). -/
  cnt : Count
  /-- The address latch (R17). -/
  addr : Addr8
  /-- The data buffer (R18). -/
  data : Byte
  /-- The pin `rst` (R21). -/
  rst : Bool
  /-- The bytes the transport holds for the block, oldest first: `rx_valid` and `rx_data` (R21, R36, R79). -/
  rx : List Byte
  /-- The pin `tx_ready` (R21). -/
  txReady : Bool
  /-- The bytes the transport took from the block and holds for the host, oldest first (R36). -/
  tx : List Byte
  /-- The bytes the host has taken, oldest first. -/
  delivered : List Byte
  /-- The pin `rf_ack`: whether the platform finishes the access requested (R21, R22). -/
  rfAck : Bool
  /-- The platform's register map (R9). -/
  platform : Platform
  /-- The storage bytes of the I/O space (R23), in canonical form (`Memory.wf`). -/
  io : List Host.Cell
  /-- The storage bytes of the Memory space (R23), in canonical form. -/
  mem : List Host.Cell
  /-- The queue of the FIFO registers. -/
  fifo : List Byte
  /-- The accesses performed, oldest first. -/
  log : List Access
  /-- The moves still to come; when there is none the core moves by itself. -/
  script : List Move
deriving DecidableEq, Repr

/-- Why the machine stops with a fault. -/
inductive Fault where
  /-- `PlatformFault(sp, a, dir)`, raised by READ-SAMPLE and WRITE-PERFORM at an address the platform refuses,
  and by an external reset that performs such an access in flight (60_exceptions.md R82).  Safe: the block
  itself would issue the access, with platform-defined consequences; the model stops. -/
  | platformFault (sp : Space) (a : Addr8) (dir : Direction)
deriving DecidableEq, Repr

/-- Why the machine gives an instruction no meaning. -/
inductive Refusal where
  /-- Raised by `exec` for an instruction without a meaning; no instruction is left so.  Safe. -/
  | notModelled (mnemonic : String)
deriving DecidableEq, Repr

/-- The answer of one step of this machine. -/
abbrev Result := Host.Outcome State Fault Refusal

/-- The configuration DRAW: no address is refused, no value is promised (95_test_vectors.md). -/
def Platform.draw : Platform := { others := .volatile, listed := [] }

/-- The machine after reset (R25): `st = S_HDR`.  DESIGN CHOICE: the spec gives `cmd`, `cnt`, `addr` and `data` no value
(log entry 1); pins, transport, platform, log and script as in log entries 2 to 6. -/
def State.reset : State where
  st := .hdr
  cmd := 0
  cnt := 0
  addr := 0
  data := 0
  rst := false
  rx := []
  txReady := true
  tx := []
  delivered := []
  rfAck := true
  platform := .draw
  io := []
  mem := []
  fifo := []
  log := []
  script := []

end Sys2Proof.Machine
end

