-- ==== Sys2Proof/Machine/Operands.lean ====
section
/-! DEFINITION. What a burst's operands are: the space, the direction and the address of an access
(10_state.md R15, 20_memory.md R30, 41_accessor.md R61). -/

namespace Sys2Proof.Machine

/-- `sp = (cmd[0] = 0) ? IO : Memory` (R30, R61). -/
def State.space (s : State) : Space := if s.cmd.getLsbD 0 then .memory else .io

/-- `cmd[1]`, the direction bit: 0 means read, 1 means write (R15). -/
def State.isWrite (s : State) : Bool := s.cmd.getLsbD 1

/-- `ea = zext_RF_ADDR_W(addr)`: what the platform's address port carries (R30). -/
def State.portAddress (s : State) : BitVec Config.rfAddrWidth := s.addr.setWidth Config.rfAddrWidth

end Sys2Proof.Machine
end

