-- ==== Sys2Proof/Machine/Flags.lean ====
section
/-! DEFINITION. The block has no status flags and no condition codes (10_state.md R20).  Its one condition is formed
where a rule tests it and is not stored. -/

namespace Sys2Proof.Machine

/-- The condition `cnt = 0` (R20). -/
def State.countDone (s : State) : Bool := s.cnt == 0

end Sys2Proof.Machine
end

