-- ==== Sys2Proof/Machine/Ops.lean ====
section
/-! DEFINITION. The named operations over registers, storage and the platform that every meaning uses
(00_scope.md R12), and the five steps of decoding and the four of the burst machine (40_decoder.md, 41_accessor.md).

The block takes no exception and returns from none: it has no trap entry, saved register or handler (60_exceptions.md
R81, R85).  Its one fault is `PlatformFault`, raised in one place, `checkAccess`; what leaves the normal
next-state relation is external reset, `assertReset`. -/

namespace Sys2Proof.Machine

/-! ## Updates of the state, one for each field a step writes -/

/-- `goto S` (R12). -/
def State.goTo (s : State) (x : St) : State := { s with st := x }
/-- `cmd <- v`. -/
def State.setCmd (s : State) (v : Selector) : State := { s with cmd := v }
/-- `cnt <- v`. -/
def State.setCnt (s : State) (v : Count) : State := { s with cnt := v }
/-- `addr <- v`. -/
def State.setAddr (s : State) (v : Addr8) : State := { s with addr := v }
/-- `data <- v`. -/
def State.setData (s : State) (v : Byte) : State := { s with data := v }
/-- Drive the pin `rst`. -/
def State.setRst (s : State) (v : Bool) : State := { s with rst := v }
/-- Replace the bytes held for the block. -/
def State.setRx (s : State) (l : List Byte) : State := { s with rx := l }
/-- Drive the pin `tx_ready`. -/
def State.setTxReady (s : State) (v : Bool) : State := { s with txReady := v }
/-- Replace the bytes held for the host. -/
def State.setTx (s : State) (l : List Byte) : State := { s with tx := l }
/-- Replace the bytes the host has taken. -/
def State.setDelivered (s : State) (l : List Byte) : State := { s with delivered := l }
/-- Drive the pin `rf_ack`. -/
def State.setRfAck (s : State) (v : Bool) : State := { s with rfAck := v }
/-- Replace the storage of one space. -/
def State.setCells (s : State) (sp : Space) (m : List Host.Cell) : State :=
  { s with io := if sp = .io then m else s.io, mem := if sp = .memory then m else s.mem }
/-- Replace the queue. -/
def State.setFifo (s : State) (l : List Byte) : State := { s with fifo := l }
/-- Record an access at the end of the log. -/
def State.record (s : State) (x : Access) : State := { s with log := s.log ++ [x] }
/-- Replace the schedule. -/
def State.setScript (s : State) (l : List Move) : State := { s with script := l }

/-! ## Storage: bytes by address, in one canonical form -/

/-- What an address that is not listed reads as.  DESIGN CHOICE (log entry 4). -/
def Memory.unlisted : Byte := 0

/-- The canonical form: addresses strictly rising, and no entry equal to what an unlisted address reads as. -/
abbrev Memory.wf (m : List Host.Cell) : Prop :=
  m.Pairwise (fun x y => x.1 < y.1) ∧ ∀ c ∈ m, c.2 ≠ Memory.unlisted

/-- Read one byte of storage. -/
def Memory.read : List Host.Cell → Nat → Byte
  | [], _ => Memory.unlisted
  | (b, w) :: r, a => if b = a then w else Memory.read r a

/-- An entry put in front, unless it says what an unlisted address reads as. -/
def Memory.cons (a : Nat) (v : Byte) (m : List Host.Cell) : List Host.Cell :=
  if v = Memory.unlisted then m else (a, v) :: m

/-- Write one byte of storage, keeping the canonical form. -/
def Memory.write : List Host.Cell → Nat → Byte → List Host.Cell
  | [], a, v => Memory.cons a v []
  | (b, w) :: r, a, v =>
    if a < b then Memory.cons a v ((b, w) :: r)
    else if a = b then Memory.cons a v r
    else (b, w) :: Memory.write r a v

/-- The storage of one space. -/
def State.cells (s : State) : Space → List Host.Cell
  | .io => s.io
  | .memory => s.mem

/-! ## The platform register file -/

/-- The kind of an address: as listed, else the kind of all others. -/
def Platform.kind (p : Platform) (sp : Space) (a : Addr8) : RegKind :=
  (p.listed.lookup (sp, a)).getD p.others

/-- `rfValid sp a` (R9, R34). -/
def Platform.valid (p : Platform) (sp : Space) (a : Addr8) : Bool := p.kind sp a != .refused

/-- The storage byte an address names, where it names one: its own, or the one it shares (`rfAlias`, R33). -/
def Platform.cell (p : Platform) (sp : Space) (a : Addr8) : Option (Space × Nat) :=
  match p.kind sp a with
  | .storage => some (sp, a.toNat)
  | .sharedWith sp' a' => some (sp', a'.toNat)
  | .volatile | .fifo | .refused => none

/-- `raise PlatformFault(sp, a, dir)` where the platform refuses the address, before the access (R34, R82, R86). -/
def checkAccess (s : State) (sp : Space) (a : Addr8) (dir : Direction) : Except Fault Unit :=
  if s.platform.valid sp a then .ok () else .error (.platformFault sp a dir)

/-- The byte a read of an address returns: `rf_rdata` (R31; PLAIN, FIFO and DRAW of 95_test_vectors.md).  A
volatile register and an empty queue answer with a free value. -/
def State.sampleValue (s : State) (sp : Space) (a : Addr8) : Byte :=
  match s.platform.cell sp a with
  | some (c, x) => Memory.read (s.cells c) x
  | none =>
    if s.platform.kind sp a = .fifo then s.fifo.headD (Config.rfRead s.log sp a)
    else Config.rfRead s.log sp a

/-- What a read does to the platform: a queue loses its head (R31, R98). -/
def State.afterRead (s : State) (sp : Space) (a : Addr8) : State :=
  if s.platform.kind sp a = .fifo then s.setFifo s.fifo.tail else s

/-- What a write does to the platform: a storage byte takes it, a queue appends it (R32, R98). -/
def State.afterWrite (s : State) (sp : Space) (a : Addr8) (v : Byte) : State :=
  match s.platform.cell sp a with
  | some (c, x) => s.setCells c (Memory.write (s.cells c) x v)
  | none => if s.platform.kind sp a = .fifo then s.setFifo (s.fifo ++ [v]) else s

/-- `MemRead(sp, a, 1)` (R12, R29, R31): one new sample, recorded in the log. -/
def memRead (s : State) (sp : Space) (a : Addr8) : Except Fault (Byte × State) :=
  match checkAccess s sp a .read with
  | .error f => .error f
  | .ok _ => .ok (s.sampleValue sp a, (s.afterRead sp a).record (.read sp a (s.sampleValue sp a)))

/-- `MemWrite(sp, a, 1, v)` (R12, R29, R32): one write, recorded in the log. -/
def memWrite (s : State) (sp : Space) (a : Addr8) (v : Byte) : Except Fault State :=
  match checkAccess s sp a .write with
  | .error f => .error f
  | .ok _ => .ok ((s.afterWrite sp a v).record (.write sp a v))

/-! ## The decode steps (40_decoder.md), given the byte received -/

/-- HEADER, with COUNT-SMALL and COUNT-EXT-HIGH (R53, R54, R55). -/
def headerStep (s : State) (h : Byte) : State :=
  let s := s.setCmd (headerSel h)
  if headerSmall h then (s.setCnt (smallCount h)).goTo .addr
  else (s.setCnt (extendedCount h 0)).goTo .cntLo

/-- COUNT-LO: `cnt[7:0] <- lo` (R56). -/
def countLowStep (s : State) (lo : Byte) : State :=
  (s.setCnt (s.cnt.extractLsb' 8 5 ++ lo)).goTo .addr

/-- ADDRESS-LATCH and the read/write multiplexor (R57). -/
def addressStep (s : State) (a : Byte) : State :=
  (s.setAddr a).goTo (if s.countDone then .hdr else if s.isWrite then .wrRecv else .rdSample)

/-! ## The burst steps (41_accessor.md) -/

/-- The end of a byte operation: decrement, test the new value, go on or return to `S_HDR` (R63, R65, R66). -/
def State.countDown (s : State) (again : St) : State :=
  let s := s.setCnt (s.cnt - 1)
  s.goTo (if s.countDone then .hdr else again)

/-- READ-SAMPLE (R62), once `rf_ack` is given. -/
def readSample (s : State) : Result :=
  match memRead s s.space s.addr with
  | .error f => .fault f
  | .ok (v, s) => .next ((s.setData v).goTo .rdSend)

/-- READ-SEND (R63), once `tx_ready` is given. -/
def readSend (s : State) : State :=
  (s.setTx (s.tx ++ [s.data])).countDown .rdSample

/-- WRITE-RECV (R64), given the byte received. -/
def writeRecv (s : State) (d : Byte) : State := (s.setData d).goTo .wrWrite

/-- WRITE-PERFORM (R65), once `rf_ack` is given. -/
def writePerform (s : State) : Result :=
  match memWrite s s.space s.addr s.data with
  | .error f => .fault f
  | .ok s => .next (s.countDown .wrRecv)

/-! ## External reset (70_reset_and_hazards.md R92, R93) -/

/-- What becomes of the access or the send in flight when `rst` is asserted: performed or not (R93). -/
def settleInFlight (s : State) (performed : Bool) : Except Fault State :=
  if performed then
    match s.st with
    | .rdSample =>
      match memRead s s.space s.addr with
      | .error f => .error f
      | .ok (_, s) => .ok s
    | .wrWrite => memWrite s s.space s.addr s.data
    | .rdSend => .ok (s.setTx (s.tx ++ [s.data]))
    | .hdr | .cntLo | .addr | .wrRecv => .ok s
  else .ok s

/-- The block's registers after reset: `st <- S_HDR`, the others at the values `State.reset` names (R25, R92;
log entry 1). -/
def State.resetRegisters (s : State) : State :=
  ((((s.goTo .hdr).setCmd State.reset.cmd).setCnt State.reset.cnt).setAddr State.reset.addr).setData State.reset.data

/-- `resetChannelEffect` (R93), as the reset's draw gives it. -/
def State.resetChannel (s : State) (d : ResetDraw) : State :=
  (s.setRx (d.rxAfter.getD s.rx)).setTx (d.txAfter.getD s.tx)

/-- `rst` asserted: the command in progress is abandoned, accesses performed stay performed (R92, R93). -/
def assertReset (s : State) (d : ResetDraw) : Result :=
  match settleInFlight s d.performed with
  | .error f => .fault f
  | .ok s => .next (((s.resetChannel d).resetRegisters).setRst true)

end Sys2Proof.Machine
end

