-- ==== Sys2Proof/Machine/Ports.lean ====
section
/-! DEFINITION. The block's ports as functions of its state (10_state.md R21), and when the step of a state is
enabled (R22, 42_dispatch.md R76).  An output without a value while its enable is 0 is `none` (R25). -/

namespace Sys2Proof.Machine

/-- `rx_ready`: 1 exactly in `S_HDR`, `S_CNTLO`, `S_ADDR` and `S_WR_RECV`. -/
def State.rxReady (s : State) : Bool :=
  match s.st with
  | .hdr | .cntLo | .addr | .wrRecv => true
  | .rdSample | .rdSend | .wrWrite => false

/-- `tx_valid`: 1 exactly in `S_RD_SEND`. -/
def State.txValid (s : State) : Bool := s.st == .rdSend

/-- `tx_data`: the offered byte, `data`. -/
def State.txData (s : State) : Option Byte := if s.txValid then some s.data else none

/-- `rf_req`: 1 exactly in `S_RD_SAMPLE` and `S_WR_WRITE`. -/
def State.rfReq (s : State) : Bool :=
  match s.st with
  | .rdSample | .wrWrite => true
  | .hdr | .cntLo | .addr | .rdSend | .wrRecv => false

/-- `rf_we`: 1 for a write, 0 for a read. -/
def State.rfWe (s : State) : Option Bool := if s.rfReq then some (s.st == .wrWrite) else none

/-- `rf_space`: `cmd[0]`. -/
def State.rfSpace (s : State) : Option Bool := if s.rfReq then some (s.cmd.getLsbD 0) else none

/-- `rf_addr`: the latch, zero-extended (R30). -/
def State.rfAddr (s : State) : Option (BitVec Config.rfAddrWidth) := if s.rfReq then some s.portAddress else none

/-- `rf_wdata`: `data` during a write. -/
def State.rfWdata (s : State) : Option Byte := if s.st == .wrWrite then some s.data else none

/-- `rx_valid`: the transport offers a byte. -/
def State.rxValid (s : State) : Bool := !s.rx.isEmpty

/-- Whether the block's own step is enabled: no reset, and the handshake its state waits for is satisfied
(R22, R76, R86). -/
def State.enabled (s : State) : Bool :=
  !s.rst && ((s.rxReady && s.rxValid) || (s.txValid && s.txReady) || (s.rfReq && s.rfAck))

end Sys2Proof.Machine
end

