-- ==== Sys2Proof/Machine/Fsm.lean ====
section
/-! DEFINITION. The next-state relation of the block, row by row (42_dispatch.md R76). -/

namespace Sys2Proof.Machine

/-- The row of the R76 table that belongs to the current state; where its wait is not satisfied the block
holds its state (10_state.md R22). -/
def fsmRow (s : State) : Result :=
  match s.st with
  | .hdr =>
    match s.rx with
    | [] => .next s
    | h :: r => .next (headerStep (s.setRx r) h)
  | .cntLo =>
    match s.rx with
    | [] => .next s
    | lo :: r => .next (countLowStep (s.setRx r) lo)
  | .addr =>
    match s.rx with
    | [] => .next s
    | a :: r => .next (addressStep (s.setRx r) a)
  | .rdSample => if s.rfAck then readSample s else .next s
  | .rdSend => if s.txReady then .next (readSend s) else .next s
  | .wrRecv =>
    match s.rx with
    | [] => .next s
    | d :: r => .next (writeRecv (s.setRx r) d)
  | .wrWrite => if s.rfAck then writePerform s else .next s

/-- One step of the block: no step fires while `rst` is asserted (60_exceptions.md R86). -/
def fsmStep (s : State) : Result := if s.rst then .next s else fsmRow s

/-- `k` steps of the block alone. -/
def fsmRun : Nat → State → Result
  | 0, s => .next s
  | k + 1, s =>
    match fsmStep s with
    | .next t => fsmRun k t
    | .fault f => .fault f
    | .refused r => .refused r

end Sys2Proof.Machine
end

