-- ==== Sys2Proof/Machine/Agents.lean ====
section
/-! DEFINITION. What each move of an agent does (00_scope.md R7, 42_dispatch.md R78, R79), and how a command is
taken from the receive port. -/

namespace Sys2Proof.Machine

/-- The host takes the oldest byte the transport holds for it (R36). -/
def State.hostTake (s : State) : State :=
  match s.tx with
  | [] => s
  | b :: r => (s.setTx r).setDelivered (s.delivered ++ [b])

/-- One move of one agent. -/
def applyMove (m : Move) (s : State) : Result :=
  match m with
  | .coreRow => fsmStep s
  | .hostSend b => .next (s.setRx (s.rx ++ [b]))
  | .hostTake => .next s.hostTake
  | .setTxReady v => .next (s.setTxReady v)
  | .setRfAck v => .next (s.setRfAck v)
  | .assertReset d => assertReset s d
  | .releaseReset => .next (s.setRst false)

/-- The whole command that waits at a command boundary, if one does, and the state with its bytes taken
(R59, R73). -/
def fetch (s : State) : Option (Instr × State) :=
  if s.rst then none
  else
    match s.st with
    | .hdr =>
      match decode s.rx with
      | .ok (i, rest) => some (i, s.setRx rest)
      | .error _ => none
    | .cntLo | .addr | .rdSample | .rdSend | .wrRecv | .wrWrite => none

/-- The command of a table word, with a payload of zeros where it is a write, put in front of what the transport
holds, at a command boundary, with the core to move next. -/
def placeCommand (s : State) (nbits w : Nat) : State :=
  (((s.goTo .hdr).setRst false).setScript []).setRx (tableCommandBytes nbits w ++ s.rx)

end Sys2Proof.Machine
end

