-- ==== Sys2Proof/Machine/Burst.lean ====
section
/-! DEFINITION. A whole command: latch its operands, then `count` byte operations at one address (41_accessor.md R61,
R66 to R71).  A handshake that is not satisfied leaves the block in the state that waits for it
(10_state.md R22, 42_dispatch.md R74); later steps take the burst up from there. -/

namespace Sys2Proof.Machine

/-- `for i in 0 .. n-1: b_i <- MemRead(sp, A, 1); TxByte(b_i)` (R68, R69), from `S_RD_SAMPLE`. -/
def readBurst : Nat → State → Result
  | 0, s => .next s
  | n + 1, s =>
    if s.rfAck then
      match readSample s with
      | .next t => if t.txReady then readBurst n (readSend t) else .next t
      | .fault f => .fault f
      | .refused r => .refused r
    else .next s

/-- `for i in 0 .. n-1: d_i <- RxByte(); MemWrite(sp, A, 1, d_i)` (R70, R71), from `S_WR_RECV`. -/
def writeBurst : Nat → State → Result
  | 0, s => .next s
  | n + 1, s =>
    match s.rx with
    | [] => .next s
    | d :: r =>
      let t := writeRecv (s.setRx r) d
      if t.rfAck then
        match writePerform t with
        | .next u => writeBurst n u
        | .fault f => .fault f
        | .refused r => .refused r
      else .next t

/-- The state after a command's own bytes are decoded: `cmd`, `cnt` and `addr` latched, and `st` where the
multiplexor sends it (40_decoder.md R53 to R57). -/
def latchCommand (s : State) (sel : Selector) (n : Count) (a : Addr8) : State :=
  addressStep ((s.setCmd sel).setCnt n) a

/-- A read command (R68, R69). -/
def runRead (sel : Selector) (n : Count) (a : Addr8) (s : State) : Result :=
  readBurst n.toNat (latchCommand s sel n a)

/-- A write command (R70, R71). -/
def runWrite (sel : Selector) (n : Count) (a : Addr8) (s : State) : Result :=
  writeBurst n.toNat (latchCommand s sel n a)

end Sys2Proof.Machine
end

