-- ==== Sys2Proof/Machine/ReadCommands.lean ====
section
/-! DEFINITION. The meanings of the read commands (41_accessor.md R68, R69), in both count forms (R46, R50). -/

namespace Sys2Proof.Machine

/-- READIO8.S: `sel = 00`, count `zext_13(c)` (R68). -/
def execReadIO8S (c : BitVec 5) (a : Addr8) (s : State) : Result := runRead 0b00#2 (c.setWidth 13) a s

/-- READIO8.X: `sel = 00`, count `n` (R68). -/
def execReadIO8X (n : Count) (a : Addr8) (s : State) : Result := runRead 0b00#2 n a s

/-- READMEM8.S: `sel = 01`, count `zext_13(c)` (R69). -/
def execReadMem8S (c : BitVec 5) (a : Addr8) (s : State) : Result := runRead 0b01#2 (c.setWidth 13) a s

/-- READMEM8.X: `sel = 01`, count `n` (R69). -/
def execReadMem8X (n : Count) (a : Addr8) (s : State) : Result := runRead 0b01#2 n a s

end Sys2Proof.Machine
end

