-- ==== Sys2Proof/Machine/WriteCommands.lean ====
section
/-! DEFINITION. The meanings of the write commands (41_accessor.md R70, R71), in both count forms (R46, R50). -/

namespace Sys2Proof.Machine

/-- WRITEIO8.S: `sel = 10`, count `zext_13(c)` (R70). -/
def execWriteIO8S (c : BitVec 5) (a : Addr8) (s : State) : Result := runWrite 0b10#2 (c.setWidth 13) a s

/-- WRITEIO8.X: `sel = 10`, count `n` (R70). -/
def execWriteIO8X (n : Count) (a : Addr8) (s : State) : Result := runWrite 0b10#2 n a s

/-- WRITEMEM8.S: `sel = 11`, count `zext_13(c)` (R71). -/
def execWriteMem8S (c : BitVec 5) (a : Addr8) (s : State) : Result := runWrite 0b11#2 (c.setWidth 13) a s

/-- WRITEMEM8.X: `sel = 11`, count `n` (R71). -/
def execWriteMem8X (n : Count) (a : Addr8) (s : State) : Result := runWrite 0b11#2 n a s

end Sys2Proof.Machine
end

