-- ==== Sys2Proof/Machine/Dispatch.lean ====
section
/-! DEFINITION. One arm for each row of opcode_table.json. -/

namespace Sys2Proof.Machine

def exec (i : Instr) (s : State) : Host.Outcome State Fault Refusal :=
  match i with
  | .readIO8S c a => Sys2Proof.Machine.execReadIO8S c a s
  | .readIO8X n a => Sys2Proof.Machine.execReadIO8X n a s
  | .readMem8S c a => Sys2Proof.Machine.execReadMem8S c a s
  | .readMem8X n a => Sys2Proof.Machine.execReadMem8X n a s
  | .writeIO8S c a => Sys2Proof.Machine.execWriteIO8S c a s
  | .writeIO8X n a => Sys2Proof.Machine.execWriteIO8X n a s
  | .writeMem8S c a => Sys2Proof.Machine.execWriteMem8S c a s
  | .writeMem8X n a => Sys2Proof.Machine.execWriteMem8X n a s

end Sys2Proof.Machine
end

