-- ==== Sys2Proof/Machine/Step.lean ====
section
/-! DEFINITION. One step of the machine.  The schedule says which agent moves; with none scheduled the core moves
by itself, a whole command at a command boundary where all its own bytes have been received, one row of the
R76 table otherwise. -/

namespace Sys2Proof.Machine

def step (s : State) : Host.Outcome State Fault Refusal :=
  match s.script with
  | m :: ms => applyMove m (s.setScript ms)
  | [] =>
    match fetch s with
    | some (i, t) => exec i t
    | none => fsmStep s

/-- The state in which the very next step runs the command of a table word. -/
def State.withFetchWord (s : State) (nbits w : Nat) : State := placeCommand s nbits w

end Sys2Proof.Machine
end

