-- ==== Sys2Proof/Machine/Runs.lean ====
section
/-! DEFINITION. Runs against a finite or infinite input (42_dispatch.md R74).  State holds the moves that are scheduled
now, a finite list; what the other agents do for the whole of a run, which may never end, is a function beside
the state. -/

namespace Sys2Proof.Machine

/-- What the agents around the core do in a run: the moves of each round, for ever.  From some round on they may all
be empty (a finite input), or never (an endless one). -/
abbrev Environment := Nat → List Move

/-- The environment in which the host and the core take turns: the host sends the bytes `f k` in round `2 k`, the core
moves in round `2 k + 1`, and no other agent does anything. -/
def hostInput (f : Nat → List Byte) : Environment :=
  fun k => if k % 2 = 0 then (f (k / 2)).map Move.hostSend else []

/-- More moves at the end of the schedule. -/
def State.feed (s : State) (ms : List Move) : State := { s with script := s.script ++ ms }

/-- One round: its moves are scheduled and as many steps are taken as there are.  A round without moves is one step,
the core's own where nothing is left on the schedule. -/
def envRound (ms : List Move) (s : State) : Result := core.run (max 1 ms.length) (s.feed ms)

/-- `k` rounds in an environment. -/
def runRounds (e : Environment) : Nat → State → Result
  | 0, s => .next s
  | k + 1, s =>
    match runRounds e k s with
    | .next t => envRound (e k) t
    | .fault f => .fault f
    | .refused r => .refused r

end Sys2Proof.Machine
end

