-- ==== Sys2Proof/Safety.lean ====
section
/-! DEFINITION. The terms claims are made in: how a run stops (42_dispatch.md R74), the invariant of the machine,
and what an access log says. -/

namespace Sys2Proof

/-- Where an access goes and which way: direction, space, address. -/
def Access.place : Access → Direction × Space × Addr8
  | .read sp a _ => (.read, sp, a)
  | .write sp a _ => (.write, sp, a)

/-- The byte a read returned. -/
def Access.sampled : Access → Option Byte
  | .read _ _ v => some v
  | .write _ _ _ => none

/-- The byte a write wrote. -/
def Access.written : Access → Option Byte
  | .read _ _ _ => none
  | .write _ _ v => some v

end Sys2Proof

namespace Sys2Proof.Machine

/-- No agent can take a step: nothing is scheduled and the block's own step is not enabled (R74). -/
def State.stopped (s : State) : Bool := s.script.isEmpty && !s.enabled

/-- The clean stop: `st = S_HDR`, no received byte pending (R74). -/
def State.idle (s : State) : Bool := s.stopped && s.st == .hdr && s.rx.isEmpty

/-- The other stop: the block waits for ever inside a command (R74). -/
def State.hung (s : State) : Bool := s.stopped && s.st != .hdr

/-- A run stops at round `k` in state `t`: no agent can take a step, then or later (R74). -/
structure StopsAt (e : Environment) (s : State) (k : Nat) (t : State) : Prop where
  reached : runRounds e k s = .next t
  stopped : t.stopped = true
  silent : ∀ j, k ≤ j → e j = []

/-- A run completes: it comes to the idle stop, with no fault recorded (R74). -/
def Completes (e : Environment) (s : State) : Prop := ∃ k t, StopsAt e s k t ∧ t.idle = true

/-- A command boundary at which the core moves next (R73), with both readiness pins given (R22). -/
structure State.Ready (s : State) : Prop where
  boundary : s.st = .hdr
  released : s.rst = false
  unscheduled : s.script = []
  txReady : s.txReady = true
  rfAck : s.rfAck = true

/-- The sample taken and not yet sent: the byte in `data` while the block is in `S_RD_SEND` (R37). -/
def State.unsent (s : State) : List Byte := if s.st = .rdSend then [s.data] else []

/-- The payload byte taken and not yet written: the byte in `data` while the block is in `S_WR_WRITE` (R38). -/
def State.unwritten (s : State) : List Byte := if s.st = .wrWrite then [s.data] else []

/-- Whether a write burst is at work. -/
def State.inWriteBurst (s : State) : Prop := s.st = .wrRecv ∨ s.st = .wrWrite

/-- The byte a move of the host sends. -/
def Move.sentByte : Move → Option Byte
  | .hostSend b => some b
  | .coreRow | .hostTake | .setTxReady _ | .setRfAck _ | .assertReset _ | .releaseReset => none

/-- Whether a move asserts reset. -/
def Move.isReset : Move → Bool
  | .assertReset _ => true
  | .coreRow | .hostSend _ | .hostTake | .setTxReady _ | .setRfAck _ | .releaseReset => false

/-- What an external reset leaves (R92, R93): the block at the boundary with reset asserted, and everything outside
its registers as in `u`, the state with what was in flight settled, but for the bytes the transport holds. -/
structure ResetDone (d : ResetDraw) (ms : List Move) (u t : State) : Prop where
  boundary : t.st = .hdr
  asserted : t.rst = true
  accesses : t.log = u.log
  io : t.io = u.io
  mem : t.mem = u.mem
  fifo : t.fifo = u.fifo
  received : t.rx = d.rxAfter.getD u.rx
  sent : t.tx = d.txAfter.getD u.tx
  delivered : t.delivered = u.delivered
  txReady : t.txReady = u.txReady
  rfAck : t.rfAck = u.rfAck
  platform : t.platform = u.platform
  script : t.script = ms

/-- The invariant every step keeps. -/
structure State.Inv (s : State) : Prop where
  /-- The storage of each space is in canonical form. -/
  ioWf : Memory.wf s.io
  memWf : Memory.wf s.mem
  /-- A read burst is at work only for a read command with operations left (R62, R66). -/
  reading : s.st = .rdSample ∨ s.st = .rdSend → s.isWrite = false ∧ s.cnt ≠ 0
  /-- A write burst likewise (R64, R66). -/
  writing : s.st = .wrRecv ∨ s.st = .wrWrite → s.isWrite = true ∧ s.cnt ≠ 0
  /-- Between header and count-low byte `cnt` holds only the high part (R16, R55). -/
  highPart : s.st = .cntLo → s.cnt.extractLsb' 0 8 = 0
  /-- While reset is asserted the block is in `S_HDR` (R86, R92). -/
  inReset : s.rst = true → s.st = .hdr

/-- What a read command of `n` bytes from address `a` of space `sp` leaves when it completes: `vs` are the
samples, in order (41_accessor.md R62, R63, R66, R68, R69). -/
structure ReadDone (sp : Space) (n : Nat) (a : Addr8) (s t : State) (vs : List Byte) : Prop where
  boundary : t.st = .hdr
  counted : t.cnt = 0
  latched : t.addr = a
  buffered : t.data = vs.getLast?.getD s.data
  samples : vs.length = n
  accesses : t.log = s.log ++ vs.map (Access.read sp a)
  sent : t.tx = s.tx ++ vs
  /-- DRAW: each sample is a separate free value. -/
  drawn : s.platform.kind sp a = .volatile →
    ∀ k, k < n → vs[k]? = some (Config.rfRead (s.log ++ (vs.take k).map (Access.read sp a)) sp a)
  /-- PLAIN: each sample is the byte stored. -/
  stored : ∀ c x, s.platform.cell sp a = some (c, x) → vs = List.replicate n (Memory.read (s.cells c) x)
  /-- FIFO(q): the samples are the queue's first bytes, which leave it. -/
  queued : s.platform.kind sp a = .fifo → n ≤ s.fifo.length → vs = s.fifo.take n ∧ t.fifo = s.fifo.drop n

/-- What a write command of the first `n` bytes received to address `a` of space `sp` leaves when it completes
(41_accessor.md R64, R65, R66, R70, R71). -/
structure WriteDone (sp : Space) (n : Nat) (a : Addr8) (s t : State) : Prop where
  boundary : t.st = .hdr
  counted : t.cnt = 0
  latched : t.addr = a
  buffered : t.data = (s.rx.take n).getLast?.getD s.data
  consumed : t.rx = s.rx.drop n
  accesses : t.log = s.log ++ (s.rx.take n).map (Access.write sp a)
  /-- PLAIN: the register ends holding the last payload byte. -/
  stored : ∀ c x, s.platform.cell sp a = some (c, x) → Memory.wf (s.cells c) →
    Memory.read (t.cells c) x = (s.rx.take n).getLast?.getD (Memory.read (s.cells c) x)
  /-- FIFO(q): the queue has taken the payload. -/
  queued : s.platform.kind sp a = .fifo → t.fifo = s.fifo ++ s.rx.take n

/-- An answer with the data buffer of its next state left out of account. -/
def forgetData : Result → Result
  | .next t => .next { t with data := 0 }
  | .fault f => .fault f
  | .refused r => .refused r

end Sys2Proof.Machine
end

