-- ==== Sys2Proof/Certificates/Slice0/Obligations.lean ====
section
/-! DEFINITION. The statements for the provers, from the numbered rules of the spec. -/

open Sys2Proof Sys2Proof.Machine

/-! ## Encoding and decoding -/

/-- Decoding an encoded command gives it back, whatever follows it (R43, R44, R46, R47). -/
def Obligations.DecodeInvertsEncode : Prop :=
  ∀ (i : Instr) (rest : List Byte), decode (encode i ++ rest) = .ok (i, rest)

/-- What decodes to a command is that command's encoding, and nothing past it is taken (R45, R59). -/
def Obligations.EncodeInvertsDecode : Prop :=
  ∀ (bs : List Byte) (i : Instr) (rest : List Byte), decode bs = .ok (i, rest) → bs = encode i ++ rest

/-- R49: no header, count-low or address value is illegal, and no decode step raises anything. -/
def Obligations.EveryEncodingIsLegal : Prop :=
  (∀ (h a : Byte) (rest : List Byte), h.getLsbD 5 = true → ∃ i, decode (h :: a :: rest) = .ok (i, rest)) ∧
  (∀ (h lo a : Byte) (rest : List Byte), h.getLsbD 5 = false →
    ∃ i, decode (h :: lo :: a :: rest) = .ok (i, rest)) ∧
  (∀ s : State, s.st = .hdr ∨ s.st = .cntLo ∨ s.st = .addr → ∃ t, fsmStep s = .next t)

/-- R46: the count is `h & 0x1F` in the small form and `((h & 0x1F) << 8) | lo` in the extended form. -/
def Obligations.CountIsAssembledFromHeader : Prop :=
  ∀ (h lo a : Byte) (rest : List Byte) (i : Instr) (r : List Byte), decode (h :: lo :: a :: rest) = .ok (i, r) →
    i.count.toNat =
      if h.getLsbD 5 = true then h.toNat &&& 0x1F else ((h.toNat &&& 0x1F) <<< 8) ||| lo.toNat

/-- R42: the selector table, by `h & 0xC0`, by `sel[1]` and by `sel[0]`. -/
def Obligations.SelectorPicksCommand : Prop :=
  ∀ (h lo a : Byte) (rest : List Byte) (i : Instr) (r : List Byte), decode (h :: lo :: a :: rest) = .ok (i, r) →
    (i.direction, i.space) =
      (if h &&& 0xC0#8 = 0x00#8 then (.read, .io)
       else if h &&& 0xC0#8 = 0x40#8 then (.read, .memory)
       else if h &&& 0xC0#8 = 0x80#8 then (.write, .io)
       else (.write, .memory)) ∧
    (i.direction = .write ↔ h.getLsbD 7 = true) ∧ (i.space = .memory ↔ h.getLsbD 6 = true)

/-- The commands of the spec's worked examples and vectors (R52, R68 to R71, V-D). -/
def Obligations.SpecExamplesDecode : Prop :=
  decode [0x22, 0x3F] = .ok (.readIO8S 2 0x3F, []) ∧
  decode [0x0A, 0xBC, 0x07] = .ok (.readIO8X 2748 0x07, []) ∧
  decode [0x61, 0x60] = .ok (.readMem8S 1 0x60, []) ∧
  decode [0x40, 0x20, 0x21] = .ok (.readMem8X 32 0x21, []) ∧
  decode [0xA5, 0x10, 1, 2, 3, 4, 5] = .ok (.writeIO8S 5 0x10, [1, 2, 3, 4, 5]) ∧
  decode [0x81, 0x00, 0x44] = .ok (.writeIO8X 256 0x44, []) ∧
  decode [0xE1, 0x60, 0x5A] = .ok (.writeMem8S 1 0x60, [0x5A]) ∧
  decode [0xDF, 0xFF, 0x00] = .ok (.writeMem8X 8191 0x00, [])

/-- R50: counts 0 to 31 have both forms, which behave alike and differ by one received byte; the extended zero
performs nothing; larger counts have the extended form only. -/
def Obligations.BothFormsBehaveAlike : Prop :=
  (∀ (m : Mnemonic) (c : BitVec 5) (a : Addr8) (s : State),
    exec (m.small c a) s = exec (m.extended (c.setWidth 13) a) s ∧
    (m.small c a).count.toNat = c.toNat ∧ (m.extended (c.setWidth 13) a).count.toNat = c.toNat ∧
    (∃ h, encode (m.small c a) = [h, a] ∧ h.extractLsb' 0 5 = c) ∧
    (∃ h, encode (m.extended (c.setWidth 13) a) = [h, c.setWidth 8, a] ∧ h.extractLsb' 0 5 = 0#5)) ∧
  (∀ (m : Mnemonic) (a : Addr8) (s : State), ∃ t, exec (m.extended 0 a) s = .next t ∧
    t.log = s.log ∧ t.tx = s.tx ∧ t.rx = s.rx) ∧
  (∀ i : Instr, 32 ≤ i.count.toNat → i.isSmall = false) ∧
  (∀ a : Byte, decode [0x00, 0x20, a] = .ok (.readIO8X 32 a, []))

/-- R52: a well-formed line assembles to the command it names, in the form its suffix or its count asks for; its
bytes decode to it; an ill-formed line assembles to nothing. -/
def Obligations.AssemblerLinesAssemble : Prop :=
  (∀ l : AsmLine, l.wf = true → ∃ τ, l.assemble = some τ ∧ τ.wf = true ∧ τ.payload = l.payload ∧
    decode τ.bytes = .ok (τ.instr, l.payload) ∧
    τ.instr.count.toNat = l.count ∧ τ.instr.address.toNat = l.address ∧
    (τ.instr.direction = .write ↔ l.mnemonic = .writeIO8 ∨ l.mnemonic = .writeMem8) ∧
    (τ.instr.space = .memory ↔ l.mnemonic = .readMem8 ∨ l.mnemonic = .writeMem8) ∧
    (τ.instr.isSmall = true ↔ l.suffix = some .small ∨ l.suffix = none ∧ l.count ≤ 31)) ∧
  (∀ l : AsmLine, l.wf = false → l.assemble = none)

/-! ## The rows of the state machine -/

/-- R53, R54, R55: the header step and its two branches. -/
def Obligations.HeaderRow : Prop :=
  ∀ s : State, s.rst = false → s.st = .hdr →
    (s.rx = [] → fsmStep s = .next s) ∧
    (∀ (h : Byte) (r : List Byte), s.rx = h :: r →
      fsmStep s = .next
        (if h.getLsbD 5 = true then
          { s with rx := r, cmd := h.extractLsb' 6 2, cnt := h.setWidth 13 &&& 0x1F#13, st := .addr }
        else
          { s with rx := r, cmd := h.extractLsb' 6 2, cnt := (h.setWidth 13 &&& 0x1F#13) <<< 8, st := .cntLo }))

/-- R56: the count-low step replaces `cnt[7:0]`. -/
def Obligations.CountLowRow : Prop :=
  ∀ s : State, s.rst = false → s.st = .cntLo →
    (s.rx = [] → fsmStep s = .next s) ∧
    (∀ (lo : Byte) (r : List Byte), s.rx = lo :: r →
      fsmStep s = .next { s with rx := r, cnt := (s.cnt &&& 0x1F00#13) ||| lo.setWidth 13, st := .addr })

/-- R57: the address step and the multiplexor. -/
def Obligations.AddressRow : Prop :=
  ∀ s : State, s.rst = false → s.st = .addr →
    (s.rx = [] → fsmStep s = .next s) ∧
    (∀ (a : Byte) (r : List Byte), s.rx = a :: r →
      fsmStep s = .next
        { s with
          rx := r, addr := a,
          st := if s.cnt.toNat = 0 then .hdr else if s.cmd.getLsbD 1 = false then .rdSample else .wrRecv })

/-- R62: READ-SAMPLE.  The refused address faults; otherwise one new sample goes to `data` and to the log. -/
def Obligations.ReadSampleRow : Prop :=
  (∀ (s : State) (sp : Space), s.rst = false → s.st = .rdSample → s.rfAck = true →
    sp = (if s.cmd.getLsbD 0 = true then .memory else .io) →
    (s.platform.valid sp s.addr = false → fsmStep s = .fault (.platformFault sp s.addr .read)) ∧
    (s.platform.valid sp s.addr = true →
      fsmStep s = .next
        { s.afterRead sp s.addr with
          data := s.sampleValue sp s.addr,
          log := s.log ++ [.read sp s.addr (s.sampleValue sp s.addr)],
          st := .rdSend })) ∧
  (∀ s t : State, s.Inv → fsmStep s = .next t → t.st = .rdSample → 1 ≤ t.cnt.toNat ∧ t.cmd.getLsbD 1 = false)

/-- R63: READ-SEND.  The test uses the count after the decrement; no received byte is taken while sampling or sending. -/
def Obligations.ReadSendRow : Prop :=
  (∀ s : State, s.rst = false → s.st = .rdSend →
    (s.txReady = false → fsmStep s = .next s) ∧
    (s.txReady = true →
      fsmStep s = .next
        { s with
          tx := s.tx ++ [s.data], cnt := s.cnt - 1,
          st := if (s.cnt - 1).toNat = 0 then .hdr else .rdSample })) ∧
  (∀ s t : State, s.st = .rdSample ∨ s.st = .rdSend → fsmStep s = .next t → s.rxReady = false ∧ t.rx = s.rx)

/-- R64: WRITE-RECV. -/
def Obligations.WriteRecvRow : Prop :=
  (∀ s : State, s.rst = false → s.st = .wrRecv →
    (s.rx = [] → fsmStep s = .next s) ∧
    (∀ (d : Byte) (r : List Byte), s.rx = d :: r →
      fsmStep s = .next { s with rx := r, data := d, st := .wrWrite })) ∧
  (∀ s t : State, s.Inv → fsmStep s = .next t → t.st = .wrRecv → 1 ≤ t.cnt.toNat ∧ t.cmd.getLsbD 1 = true)

/-- R65: WRITE-PERFORM.  The refused address faults; otherwise the byte is written and the count goes down. -/
def Obligations.WritePerformRow : Prop :=
  ∀ (s : State) (sp : Space), s.rst = false → s.st = .wrWrite → s.rfAck = true →
    sp = (if s.cmd.getLsbD 0 = true then .memory else .io) →
    (s.platform.valid sp s.addr = false → fsmStep s = .fault (.platformFault sp s.addr .write)) ∧
    (s.platform.valid sp s.addr = true →
      fsmStep s = .next
        { s.afterWrite sp s.addr s.data with
          log := s.log ++ [.write sp s.addr s.data], cnt := s.cnt - 1,
          st := if (s.cnt - 1).toNat = 0 then .hdr else .wrRecv })

/-- Every output port in every state: its enable, and its value while the enable is 1, none while it is 0 (R21, R25). -/
def Obligations.OutputPortsFollowState : Prop :=
  ∀ s : State,
    (s.rxReady = true ↔ s.st = .hdr ∨ s.st = .cntLo ∨ s.st = .addr ∨ s.st = .wrRecv) ∧
    (s.txValid = true ↔ s.st = .rdSend) ∧
    (s.rfReq = true ↔ s.st = .rdSample ∨ s.st = .wrWrite) ∧
    s.txData = (if s.st = .rdSend then some s.data else none) ∧
    s.rfWe = (if s.st = .wrWrite then some true else if s.st = .rdSample then some false else none) ∧
    s.rfWdata = (if s.st = .wrWrite then some s.data else none) ∧
    s.rfSpace = (if s.st = .wrWrite ∨ s.st = .rdSample then some (s.cmd.getLsbD 0) else none) ∧
    s.rfAddr = (if s.st = .wrWrite ∨ s.st = .rdSample then some s.portAddress else none)

/-- R30: every access goes to the space of `cmd[0]` and to the latch, which the port carries zero-extended
and which no step of a burst moves. -/
def Obligations.AccessesUseTheLatch : Prop :=
  (∀ s t : State, s.st = .rdSample ∨ s.st = .rdSend ∨ s.st = .wrRecv ∨ s.st = .wrWrite → fsmStep s = .next t →
    t.addr = s.addr ∧ t.cmd.getLsbD 0 = s.cmd.getLsbD 0) ∧
  ∀ s : State, s.st = .rdSample ∨ s.st = .wrWrite →
    (∃ p, s.rfAddr = some p ∧ p.toNat = s.addr.toNat ∧ ∀ k, 8 ≤ k → p.getLsbD k = false) ∧
    (∀ t, s.rst = false → s.rfAck = true → fsmStep s = .next t →
      ∃ x, t.log = s.log ++ [x] ∧
        x.place = (if s.st = .wrWrite then .write else .read, if s.cmd.getLsbD 0 = true then .memory else .io, s.addr))

/-- A wait holds the whole state, and only a wait does (R22, R76).  That a refused access waits too while `rf_ack` is 0 is
the model's reading of R76 (log entry 9). -/
def Obligations.BlockHoldsExactlyWhileWaiting : Prop :=
  ∀ s : State, fsmStep s = .next s ↔ s.enabled = false

/-- Which state writes which register of the block (R15 to R18). -/
def Obligations.RegistersHaveTheirWriters : Prop :=
  ∀ s t : State, fsmStep s = .next t →
    (t.cmd ≠ s.cmd → s.st = .hdr) ∧ (t.addr ≠ s.addr → s.st = .addr) ∧
    (t.cnt ≠ s.cnt → s.st = .hdr ∨ s.st = .cntLo ∨ s.st = .rdSend ∨ s.st = .wrWrite) ∧
    (t.data ≠ s.data → s.st = .rdSample ∨ s.st = .wrRecv)

/-- A burst ends only by its last byte operation, and keeps its command and its address (R61, R73, R75). -/
def Obligations.BurstEndsOnlyByItsLastOperation : Prop :=
  ∀ s t : State, s.st = .rdSample ∨ s.st = .rdSend ∨ s.st = .wrRecv ∨ s.st = .wrWrite → fsmStep s = .next t →
    t.cmd = s.cmd ∧ t.addr = s.addr ∧
    (t.st = .rdSample ∨ t.st = .rdSend ∨ t.st = .wrRecv ∨ t.st = .wrWrite ∨
      t.st = .hdr ∧ s.cnt.toNat = 1 ∧ t.cnt.toNat = 0 ∧ (s.st = .rdSend ∨ s.st = .wrWrite))

/-- After `k` byte operations of a read burst the counter holds `n - k` (R66). -/
def Obligations.ReadBurstCountsDown : Prop :=
  ∀ (k : Nat) (s : State), s.rst = false → s.st = .rdSample → s.rfAck = true → s.txReady = true →
    s.platform.valid s.space s.addr = true → k ≤ s.cnt.toNat → 1 ≤ s.cnt.toNat →
    ∃ t, fsmRun (2 * k) s = .next t ∧ t.cnt.toNat = s.cnt.toNat - k ∧
      t.log.length = s.log.length + k ∧ t.tx.length = s.tx.length + k ∧
      t.st = (if k = s.cnt.toNat then .hdr else .rdSample)

/-- After `k` byte operations of a write burst the counter holds `n - k` (R66). -/
def Obligations.WriteBurstCountsDown : Prop :=
  ∀ (k : Nat) (s : State), s.rst = false → s.st = .wrRecv → s.rfAck = true → k ≤ s.rx.length →
    s.platform.valid s.space s.addr = true → k ≤ s.cnt.toNat → 1 ≤ s.cnt.toNat →
    ∃ t, fsmRun (2 * k) s = .next t ∧ t.cnt.toNat = s.cnt.toNat - k ∧
      t.log.length = s.log.length + k ∧ t.rx = s.rx.drop k ∧
      t.st = (if k = s.cnt.toNat then .hdr else .wrRecv)

/-- R37: sample and transmission alternate strictly: at every moment all samples have been sent, in order, but
the one in `data` while the block is in `S_RD_SEND`. -/
def Obligations.SamplesAreSentOneByOne : Prop :=
  ∀ (k : Nat) (s t : State), s.st = .hdr → fsmRun k s = .next t →
    ∃ (new : List Access) (sent : List Byte), t.log = s.log ++ new ∧ t.tx = s.tx ++ sent ∧
      new.filterMap Access.sampled = sent ++ (if t.st = .rdSend then [t.data] else [])

/-- R38: receipt and write alternate strictly: at every moment of a write burst all payload bytes taken have been
written, in order, but the one in `data` while the block is in `S_WR_WRITE`. -/
def Obligations.PayloadIsWrittenByteByByte : Prop :=
  ∀ (k : Nat) (s t : State), s.st = .wrRecv → k ≤ 2 * s.cnt.toNat → fsmRun k s = .next t →
    ∃ (new : List Access) (taken : List Byte), t.log = s.log ++ new ∧ s.rx = taken ++ t.rx ∧
      taken = new.filterMap Access.written ++ (if t.st = .wrWrite then [t.data] else [])

/-- The block takes the oldest byte received and appends the byte it sends (R36); the host's bytes queue
behind those that wait, and it takes the oldest byte sent.  That the transport holds any number of bytes and loses
none is log entry 12 (DEDUCED from R36, R79); that the host's moves come from the schedule is log entry 6
(DESIGN CHOICE). -/
def Obligations.ChannelKeepsByteOrder : Prop :=
  (∀ s t : State, fsmStep s = .next t →
    (t.rx = s.rx ∨ s.rxReady = true ∧ ∃ b, s.rx = b :: t.rx) ∧
    (t.tx = s.tx ∨ s.txValid = true ∧ t.tx = s.tx ++ [s.data]) ∧ t.delivered = s.delivered) ∧
  (∀ (s : State) (b : Byte) (ms : List Move), s.script = .hostSend b :: ms →
    step s = .next { s with script := ms, rx := s.rx ++ [b] }) ∧
  (∀ (s : State) (b : Byte) (r : List Byte) (ms : List Move), s.script = .hostTake :: ms → s.tx = b :: r →
    step s = .next { s with script := ms, tx := r, delivered := s.delivered ++ [b] })

/-! ## The four commands -/

/-- R68: READIO8 in both forms: its encodings, its `n` samples sent, its fault. -/
def Obligations.ReadIO8SamplesAndSends : Prop :=
  (∀ (c : BitVec 5) (a : Addr8), decode [0b001#3 ++ c, a] = .ok (.readIO8S c a, [])) ∧
  (∀ (c : BitVec 5) (l a : Byte), decode [0b000#3 ++ c, l, a] = .ok (.readIO8X (c ++ l) a, [])) ∧
  (∀ (i : Instr) (n : Nat) (a : Addr8) (s : State),
    (∃ c, i = .readIO8S c a ∧ n = c.toNat) ∨ (∃ m, i = .readIO8X m a ∧ n = m.toNat) →
    (s.rfAck = true → s.txReady = true → (n = 0 ∨ s.platform.valid .io a = true) →
      ∃ t vs, exec i s = .next t ∧ t.cmd = 0b00#2 ∧ ReadDone .io n a s t vs) ∧
    (s.rfAck = true → 1 ≤ n → s.platform.valid .io a = false →
      exec i s = .fault (.platformFault .io a .read)))

/-- R69: READMEM8 in both forms. -/
def Obligations.ReadMem8SamplesAndSends : Prop :=
  (∀ (c : BitVec 5) (a : Addr8), decode [0b011#3 ++ c, a] = .ok (.readMem8S c a, [])) ∧
  (∀ (c : BitVec 5) (l a : Byte), decode [0b010#3 ++ c, l, a] = .ok (.readMem8X (c ++ l) a, [])) ∧
  (∀ (i : Instr) (n : Nat) (a : Addr8) (s : State),
    (∃ c, i = .readMem8S c a ∧ n = c.toNat) ∨ (∃ m, i = .readMem8X m a ∧ n = m.toNat) →
    (s.rfAck = true → s.txReady = true → (n = 0 ∨ s.platform.valid .memory a = true) →
      ∃ t vs, exec i s = .next t ∧ t.cmd = 0b01#2 ∧ ReadDone .memory n a s t vs) ∧
    (s.rfAck = true → 1 ≤ n → s.platform.valid .memory a = false →
      exec i s = .fault (.platformFault .memory a .read)))

/-- R70: WRITEIO8 in both forms: its encodings, its payload written in order, its fault after the first payload
byte, and the hang on a payload that is too short, with the bytes that did arrive written. -/
def Obligations.WriteIO8WritesItsPayload : Prop :=
  (∀ (c : BitVec 5) (a : Addr8), decode [0b101#3 ++ c, a] = .ok (.writeIO8S c a, [])) ∧
  (∀ (c : BitVec 5) (l a : Byte), decode [0b100#3 ++ c, l, a] = .ok (.writeIO8X (c ++ l) a, [])) ∧
  (∀ (i : Instr) (n : Nat) (a : Addr8) (s : State),
    (∃ c, i = .writeIO8S c a ∧ n = c.toNat) ∨ (∃ m, i = .writeIO8X m a ∧ n = m.toNat) →
    (s.rfAck = true → n ≤ s.rx.length → (n = 0 ∨ s.platform.valid .io a = true) →
      ∃ t, exec i s = .next t ∧ t.cmd = 0b10#2 ∧ WriteDone .io n a s t) ∧
    (s.rfAck = true → 1 ≤ n → s.rx ≠ [] → s.platform.valid .io a = false →
      exec i s = .fault (.platformFault .io a .write)) ∧
    (s.rfAck = true → s.rx.length < n → s.platform.valid .io a = true →
      ∃ t, exec i s = .next t ∧ t.st = .wrRecv ∧ t.rx = [] ∧ t.cnt.toNat = n - s.rx.length ∧
        t.log = s.log ++ s.rx.map (Access.write .io a)))

/-- R71: WRITEMEM8 in both forms. -/
def Obligations.WriteMem8WritesItsPayload : Prop :=
  (∀ (c : BitVec 5) (a : Addr8), decode [0b111#3 ++ c, a] = .ok (.writeMem8S c a, [])) ∧
  (∀ (c : BitVec 5) (l a : Byte), decode [0b110#3 ++ c, l, a] = .ok (.writeMem8X (c ++ l) a, [])) ∧
  (∀ (i : Instr) (n : Nat) (a : Addr8) (s : State),
    (∃ c, i = .writeMem8S c a ∧ n = c.toNat) ∨ (∃ m, i = .writeMem8X m a ∧ n = m.toNat) →
    (s.rfAck = true → n ≤ s.rx.length → (n = 0 ∨ s.platform.valid .memory a = true) →
      ∃ t, exec i s = .next t ∧ t.cmd = 0b11#2 ∧ WriteDone .memory n a s t) ∧
    (s.rfAck = true → 1 ≤ n → s.rx ≠ [] → s.platform.valid .memory a = false →
      exec i s = .fault (.platformFault .memory a .write)) ∧
    (s.rfAck = true → s.rx.length < n → s.platform.valid .memory a = true →
      ∃ t, exec i s = .next t ∧ t.st = .wrRecv ∧ t.rx = [] ∧ t.cnt.toNat = n - s.rx.length ∧
        t.log = s.log ++ s.rx.map (Access.write .memory a)))

/-- R67: a count of 0 performs nothing, whatever the pins and the platform. -/
def Obligations.ZeroCountPerformsNothing : Prop :=
  ∀ (i : Instr) (s : State), i.count.toNat = 0 →
    exec i s = .next { s with st := .hdr, cmd := i.selector, cnt := 0, addr := i.address }

/-- R72: a write followed by a read of the same space, address and count.  Plain storage answers with the last
byte; a queue, empty before, with all the bytes in order. -/
def Obligations.WriteThenReadBack : Prop :=
  ∀ (w r : Instr) (s : State) (n : Nat), w.direction = .write → r.direction = .read →
    r.space = w.space → r.address = w.address → w.count.toNat = n → r.count.toNat = n →
    s.rfAck = true → s.txReady = true → n ≤ s.rx.length → s.platform.valid w.space w.address = true →
    ∃ t u vs, exec w s = .next t ∧ exec r t = .next u ∧ u.tx = s.tx ++ vs ∧ vs.length = n ∧
      (∀ c x, s.platform.cell w.space w.address = some (c, x) → Memory.wf (s.cells c) →
        (∀ b, b ∈ vs → (s.rx.take n).getLast? = some b) ∧
        (vs = s.rx.take n ↔ n ≤ 1 ∨ ∀ d, d ∈ s.rx.take n → (s.rx.take n).getLast? = some d)) ∧
      (s.platform.kind w.space w.address = .fifo → s.fifo = [] → vs = s.rx.take n)

/-- READIO8.S, READIO8.X, READMEM8.S, READMEM8.X change nothing but the block's registers, the bytes sent, the log and
the queue of a FIFO register; every access is a read of the one register named.  R31 leaves a read's side effects
to the platform: that it leaves every storage byte, the bytes received and the pins alone is the model's choice
(log entry 3), under which an access that reaches the transport's own registers is refused (R100). -/
def Obligations.ReadCommandFrame : Prop :=
  ∀ (i : Instr) (s t : State), i.direction = .read → exec i s = .next t →
    t.cmd = i.selector ∧ t.addr = i.address ∧ t.rst = s.rst ∧ t.rx = s.rx ∧ t.txReady = s.txReady ∧ t.delivered = s.delivered ∧ t.rfAck = s.rfAck ∧
    t.platform = s.platform ∧ t.script = s.script ∧
    (∀ c x, Memory.read (t.cells c) x = Memory.read (s.cells c) x) ∧
    (s.platform.kind i.space i.address ≠ .fifo → t.fifo = s.fifo) ∧
    (∃ sent, t.tx = s.tx ++ sent ∧ sent.length ≤ i.count.toNat) ∧
    (∃ new, t.log = s.log ++ new ∧ new.length ≤ i.count.toNat ∧
      ∀ x ∈ new, x.place = (.read, i.space, i.address))

/-- WRITEIO8.S, WRITEIO8.X, WRITEMEM8.S, WRITEMEM8.X change nothing but the block's registers, the payload bytes
taken, the log, the one storage byte the address names and the queue of a FIFO register.  R32 leaves a write's side
effects to the platform: that no other storage byte, no pin and no byte sent changes is the model's choice (log
entry 3), under which an access that reaches the transport's own registers is refused (R100). -/
def Obligations.WriteCommandFrame : Prop :=
  ∀ (i : Instr) (s t : State), i.direction = .write → exec i s = .next t →
    t.cmd = i.selector ∧ t.addr = i.address ∧ t.rst = s.rst ∧ t.tx = s.tx ∧ t.txReady = s.txReady ∧ t.delivered = s.delivered ∧ t.rfAck = s.rfAck ∧
    t.platform = s.platform ∧ t.script = s.script ∧
    (∀ c x, s.platform.cell i.space i.address ≠ some (c, x) →
      Memory.read (t.cells c) x = Memory.read (s.cells c) x) ∧
    (s.platform.kind i.space i.address ≠ .fifo → t.fifo = s.fifo) ∧
    (∃ taken, s.rx = taken ++ t.rx ∧ taken.length ≤ i.count.toNat) ∧
    (∃ new, t.log = s.log ++ new ∧ new.length ≤ i.count.toNat ∧
      ∀ x ∈ new, x.place = (.write, i.space, i.address))

/-- A read command whose first byte is not accepted waits in `S_RD_SEND` with that one sample (R22, R37, R74). -/
def Obligations.ReadWaitsForTransport : Prop :=
  ∀ (i : Instr) (s : State), i.direction = .read → 1 ≤ i.count.toNat → s.rfAck = true → s.txReady = false →
    s.platform.valid i.space i.address = true → s.rst = false → s.script = [] →
    ∃ t, exec i s = .next t ∧ t.st = .rdSend ∧ t.cnt = i.count ∧ t.tx = s.tx ∧
      t.log = s.log ++ [.read i.space i.address t.data] ∧ t.hung = true ∧ ∀ k, core.run k t = .next t

/-- A command whose access the platform does not acknowledge waits at that access with nothing performed (R22,
R74): a read in `S_RD_SAMPLE`, a write in `S_WR_WRITE` with its first payload byte taken. -/
def Obligations.AccessWaitsForPlatform : Prop :=
  ∀ (i : Instr) (s : State), 1 ≤ i.count.toNat → s.rfAck = false → s.platform.valid i.space i.address = true →
    (i.direction = .read →
      ∃ t, exec i s = .next t ∧ t.st = .rdSample ∧ t.cnt = i.count ∧ t.log = s.log ∧ t.rx = s.rx ∧ t.tx = s.tx) ∧
    (i.direction = .write → ∀ d r, s.rx = d :: r →
      ∃ t, exec i s = .next t ∧ t.st = .wrWrite ∧ t.cnt = i.count ∧ t.data = d ∧ t.log = s.log ∧ t.rx = r)

/-- R83: with a count-low, an address or a payload byte missing the block waits for ever, with no timeout. -/
def Obligations.TruncatedInputHangs : Prop :=
  ∀ s : State, s.st = .cntLo ∨ s.st = .addr ∨ s.st = .wrRecv → s.rx = [] → s.script = [] → s.rst = false →
    s.hung = true ∧ ∀ k, core.run k s = .next s

/-! ## Faults -/

/-- R82: PlatformFault is raised by READ-SAMPLE and WRITE-PERFORM, only at an address the platform refuses, and
records space, address and direction. -/
def Obligations.PlatformFaultWhereRefused : Prop :=
  (∀ (s : State) (f : Fault), fsmStep s = .fault f →
    s.platform.valid s.space s.addr = false ∧
    (s.st = .rdSample ∧ f = .platformFault s.space s.addr .read ∨
      s.st = .wrWrite ∧ f = .platformFault s.space s.addr .write)) ∧
  (∀ s : State, s.rst = false → s.rfAck = true → s.platform.valid s.space s.addr = false →
    (s.st = .rdSample → fsmStep s = .fault (.platformFault s.space s.addr .read)) ∧
    (s.st = .wrWrite → fsmStep s = .fault (.platformFault s.space s.addr .write))) ∧
  (∀ s : State, (∀ sp a, s.platform.valid sp a = true) → ∀ f, step s ≠ .fault f)

/-- A step of the machine, of whichever agent, faults only at a refused address, and is never refused. -/
def Obligations.StepStopsOnlyAtRefusedAddress : Prop :=
  ∀ s : State, (∀ r, step s ≠ .refused r) ∧
    (∀ f, step s = .fault f → ∃ sp a dir, f = .platformFault sp a dir ∧ s.platform.valid sp a = false)

/-! ## The machine -/

/-- A step at a command boundary where a whole command has arrived runs that command, its bytes taken.  That an
unscheduled step is a whole command is the model's choice (log entry 6). -/
def Obligations.StepRunsTheDecodedCommand : Prop :=
  ∀ (s : State) (i : Instr) (rest : List Byte), s.script = [] → s.rst = false → s.st = .hdr →
    decode s.rx = .ok (i, rest) → step s = exec i { s with rx := rest }

/-- A step anywhere else, with nothing scheduled, is the block's own step (the model's choice, log entry 6). -/
def Obligations.StepTakesOneRowOtherwise : Prop :=
  ∀ s : State, s.script = [] → (s.rst = true ∨ s.st ≠ .hdr ∨ ∃ e, decode s.rx = .error e) → step s = fsmStep s

/-- A command is exactly a run of the rows of the R76 table, from the boundary to the state it leaves, a fault
included. -/
def Obligations.CommandRefinesStateMachine : Prop :=
  ∀ (i : Instr) (s : State) (rest : List Byte), s.st = .hdr → s.rst = false → s.rx = encode i ++ rest →
    ∃ k, fsmRun k s = exec i { s with rx := rest }

/-- The invariant holds after reset.  The values of the pins and of the storage after reset are the model's choice
(log entries 2 and 4). -/
def Obligations.InvariantHoldsAtReset : Prop := State.reset.Inv

/-- Every step, of whichever agent, keeps the invariant. -/
def Obligations.StepKeepsInvariant : Prop :=
  ∀ s t : State, s.Inv → step s = .next t → t.Inv

/-- A stream of whole commands with their payloads, to addresses the platform allows, completes: one step each, to
the idle stop, with every access in command order, every payload byte written and every sample sent in order (R35,
R36, R74, R75).  That a command is one step is the model's choice (log entry 6). -/
def Obligations.CommandStreamCompletes : Prop :=
  ∀ (ts : List Transaction) (s : State), s.Ready →
    (∀ τ ∈ ts, τ.wf = true ∧ s.platform.valid τ.instr.space τ.instr.address = true) →
    s.rx = ts.flatMap Transaction.bytes →
    ∃ t new, core.run ts.length s = .next t ∧ t.idle = true ∧ t.Ready ∧
      t.log = s.log ++ new ∧
      new.map Access.place =
        ts.flatMap (fun τ => List.replicate τ.instr.count.toNat (τ.instr.direction, τ.instr.space, τ.instr.address)) ∧
      new.filterMap Access.written = ts.flatMap Transaction.payload ∧
      t.tx = s.tx ++ new.filterMap Access.sampled

/-- The state after reset, and the ports that follow from it (R25; the values R25 gives). -/
def Obligations.ResetLeavesBoundary : Prop :=
  State.reset.st = .hdr ∧ State.reset.rxReady = true ∧ State.reset.txValid = false ∧ State.reset.rfReq = false ∧
  State.reset.txData = none ∧ State.reset.rfWe = none ∧ State.reset.rfSpace = none ∧ State.reset.rfAddr = none ∧
  State.reset.rfWdata = none

/-- External reset is accepted in every state, and of what is in flight only that one access or byte may be added,
with the effect on the platform that it has without a reset; performed at a refused address it faults (R92, R93, R34).
How the choices R93 leaves open reach the machine, and that fault, are the model's (log entry 7). -/
def Obligations.ExternalResetAbandonsCommand : Prop :=
  ∀ (s : State) (d : ResetDraw) (ms : List Move), s.script = .assertReset d :: ms →
    (d.performed = false ∨ s.st ≠ .rdSample ∧ s.st ≠ .rdSend ∧ s.st ≠ .wrWrite →
      ∃ t, step s = .next t ∧ ResetDone d ms s t) ∧
    (d.performed = true → s.st = .rdSend → ∃ t, step s = .next t ∧ ResetDone d ms { s with tx := s.tx ++ [s.data] } t) ∧
    (d.performed = true → s.st = .rdSample →
      (s.platform.valid s.space s.addr = true → ∃ t, step s = .next t ∧ t.io = s.io ∧ t.mem = s.mem ∧
        ResetDone d ms
          { s.afterRead s.space s.addr with
            log := s.log ++ [.read s.space s.addr (s.sampleValue s.space s.addr)] } t) ∧
      (s.platform.valid s.space s.addr = false → step s = .fault (.platformFault s.space s.addr .read))) ∧
    (d.performed = true → s.st = .wrWrite →
      (s.platform.valid s.space s.addr = true → ∃ t, step s = .next t ∧
        ResetDone d ms
          { s.afterWrite s.space s.addr s.data with log := s.log ++ [.write s.space s.addr s.data] } t) ∧
      (s.platform.valid s.space s.addr = false → step s = .fault (.platformFault s.space s.addr .write)))

/-- While reset is asserted no step of the block fires, whatever waits, until it is released (R86; the move that
releases it is the model's, log entry 7). -/
def Obligations.ResetHasPriority : Prop :=
  (∀ s : State, s.rst = true → fsmStep s = .next s ∧ s.enabled = false ∧ (s.script = [] → step s = .next s)) ∧
  (∀ (s : State) (ms : List Move), s.script = .releaseReset :: ms →
    step s = .next { s with script := ms, rst := false })

/-- What the block's registers held before a command does not matter to it (R13): the outcome is the same but
for the data buffer, which a command that samples and receives nothing leaves as it was. -/
def Obligations.StaleRegistersDoNotMatter : Prop :=
  ∀ (i : Instr) (s : State) (x : St) (c : Selector) (n : Count) (a : Addr8) (d : Byte),
    forgetData (exec i { s with st := x, cmd := c, cnt := n, addr := a, data := d }) = forgetData (exec i s)

/-- A write never reaches the block's own registers `st`, `cmd`, `cnt`, `addr` and `data` (R40).  That it reaches
no pin (`rst`, `tx_ready`, `rf_ack`), no byte in transit or delivered, and neither the register map nor the schedule, is
the model's choice (log entry 3): R40 and R100 leave a write to mapped transport registers to the platform, and the
model refuses it. -/
def Obligations.WritesNeverReachTheBlock : Prop :=
  ∀ (s t : State) (sp : Space) (a : Addr8) (v : Byte), memWrite s sp a v = .ok t →
    t.st = s.st ∧ t.cmd = s.cmd ∧ t.cnt = s.cnt ∧ t.addr = s.addr ∧ t.data = s.data ∧ t.rst = s.rst ∧
    t.txReady = s.txReady ∧ t.rfAck = s.rfAck ∧ t.rx = s.rx ∧ t.tx = s.tx ∧ t.delivered = s.delivered ∧
    t.platform = s.platform ∧ t.script = s.script

/-- Two addresses the platform's map makes one byte are one byte: what is written under one name is read under
the other (R33). -/
def Obligations.SharedAddressesAreOneByte : Prop :=
  ∀ (s : State) (sp sp' : Space) (a a' : Addr8) (v : Byte) (c : Space) (x : Nat),
    s.platform.cell sp a = some (c, x) → s.platform.cell sp' a' = some (c, x) → Memory.wf (s.cells c) →
    ∃ t u, memWrite s sp a v = .ok t ∧ memRead t sp' a' = .ok (v, u)

/-! ## Scheduled moves and runs in an environment -/

/-- What the step with each move first on the schedule is: the core's is one row of the next-state table, or a wait;
each of the others changes exactly what its agent drives (R7, R21, R22, R76).  The schedule is the model's choice
(log entries 6, 7, 12 and 14). -/
def Obligations.ScheduledMovesAct : Prop :=
  ∀ (s : State) (ms : List Move),
    (s.script = .coreRow :: ms → step s = fsmStep { s with script := ms }) ∧
    (∀ b, s.script = .hostSend b :: ms → step s = .next { s with script := ms, rx := s.rx ++ [b] }) ∧
    (s.script = .hostTake :: ms →
      (s.tx = [] → step s = .next { s with script := ms }) ∧
      (∀ b r, s.tx = b :: r →
        step s = .next { s with script := ms, tx := r, delivered := s.delivered ++ [b] })) ∧
    (∀ v, s.script = .setTxReady v :: ms → step s = .next { s with script := ms, txReady := v }) ∧
    (∀ v, s.script = .setRfAck v :: ms → step s = .next { s with script := ms, rfAck := v }) ∧
    (s.script = .releaseReset :: ms → step s = .next { s with script := ms, rst := false })

/-- Samples are sent one by one whatever the other agents do (R37): in every run of the machine, from any state
and through any schedule without a reset, the bytes sent (those the host has taken and those still held) grow by
the sample that waited and the samples taken, in order, but the one that still waits.  A burst may wait for
`tx_ready` or `rf_ack` and be taken up again any number of times.  The schedule, and a whole command as one unscheduled
step, are the model's choice (log entry 6). -/
def Obligations.SamplesAreSentUnderEveryMove : Prop :=
  ∀ (k : Nat) (s t : State), (∀ m ∈ s.script, m.isReset = false) → core.run k s = .next t →
    ∃ (new : List Access) (sent : List Byte), t.log = s.log ++ new ∧
      t.delivered ++ t.tx = s.delivered ++ s.tx ++ sent ∧
      s.unsent ++ new.filterMap Access.sampled = sent ++ t.unsent

/-- Payload bytes are written one by one whatever the other agents do (R38): as long as a write burst lasts, through
any schedule without a reset, the bytes taken come in order from those received before and those that arrive, and
the bytes written are the one that waited and the bytes taken, in order, but the one that still waits.  The burst
may wait for `rx_valid` or `rf_ack` and be taken up again any number of times.  The schedule is the model's choice
(log entry 6). -/
def Obligations.PayloadIsWrittenUnderEveryMove : Prop :=
  ∀ (k : Nat) (s t : State), (∀ m ∈ s.script, m.isReset = false) →
    (∀ (j : Nat) (u : State), j < k → core.run j s = .next u → u.inWriteBurst) → core.run k s = .next t →
    ∃ (new : List Access) (taken : List Byte), t.log = s.log ++ new ∧
      s.rx ++ (s.script.take k).filterMap Move.sentByte = taken ++ t.rx ∧
      s.unwritten ++ taken = new.filterMap Access.written ++ t.unwritten

/-- How a run stops (R74): it stays where it stopped, for ever; with reset released it is idle exactly at the command
boundary and hung exactly elsewhere, waiting for a byte, for the transport or for the platform.  Rounds of an
environment are the model's way to give a run a finite or infinite input (log entry 15). -/
def Obligations.StoppedRunsStayStopped : Prop :=
  ∀ (e : Environment) (s : State) (k : Nat) (t : State), StopsAt e s k t →
    (∀ j, k ≤ j → runRounds e j s = .next t) ∧
    (t.rst = false →
      (t.idle = true ↔ t.st = .hdr) ∧ (t.hung = true ↔ t.st ≠ .hdr) ∧
      (t.idle = true → t.rx = []) ∧
      (t.hung = true →
        (t.st = .cntLo ∨ t.st = .addr ∨ t.st = .wrRecv) ∧ t.rx = [] ∨ t.st = .rdSend ∧ t.txReady = false ∨
          (t.st = .rdSample ∨ t.st = .wrWrite) ∧ t.rfAck = false))

/-- A run with an endless input of whole commands to allowed addresses, host and core taking turns, serves every one of
them, in order, and never stops (R35, R73, R74).  Rounds of an environment are the model's way to give a run an infinite input (log entry 15);
a command as one step is log entry 6. -/
def Obligations.EndlessStreamIsServed : Prop :=
  ∀ (τ : Nat → Transaction) (s : State), s.Ready → s.rx = [] →
    (∀ n, (τ n).wf = true ∧ s.platform.valid (τ n).instr.space (τ n).instr.address = true) →
    (∀ n, ∃ t new, runRounds (hostInput fun k => (τ k).bytes) (2 * n) s = .next t ∧ t.Ready ∧ t.rx = [] ∧
      t.log = s.log ++ new ∧
      new.map Access.place = (List.range n).flatMap (fun k =>
        List.replicate (τ k).instr.count.toNat ((τ k).instr.direction, (τ k).instr.space, (τ k).instr.address)) ∧
      new.filterMap Access.written = (List.range n).flatMap (fun k => (τ k).payload) ∧
      t.tx = s.tx ++ new.filterMap Access.sampled) ∧
    ∀ k t, ¬ StopsAt (hostInput fun k => (τ k).bytes) s k t

/-- A finite stream of whole commands to allowed addresses, host and core taking turns, completes: the run comes to the idle stop
with no fault (R74).  Rounds are the model's (log entry 15), a command as one step is log entry 6. -/
def Obligations.FiniteStreamCompletes : Prop :=
  ∀ (ts : List Transaction) (s : State), s.Ready → s.rx = [] →
    (∀ τ ∈ ts, τ.wf = true ∧ s.platform.valid τ.instr.space τ.instr.address = true) →
    Completes (hostInput fun k => (ts[k]?.map Transaction.bytes).getD []) s
end

