-- ==== Sys2Proof/Laws/State.lean ====
section
/-! SUPPORT. What each update of the state leaves in each field. -/

namespace Sys2Proof.Machine

variable (s : State)

@[simp] theorem goTo_st (x : St) : (s.goTo x).st = x := rfl
@[simp] theorem goTo_cmd (x : St) : (s.goTo x).cmd = s.cmd := rfl
@[simp] theorem goTo_cnt (x : St) : (s.goTo x).cnt = s.cnt := rfl
@[simp] theorem goTo_addr (x : St) : (s.goTo x).addr = s.addr := rfl
@[simp] theorem goTo_data (x : St) : (s.goTo x).data = s.data := rfl
@[simp] theorem goTo_rst (x : St) : (s.goTo x).rst = s.rst := rfl
@[simp] theorem goTo_rx (x : St) : (s.goTo x).rx = s.rx := rfl
@[simp] theorem goTo_txReady (x : St) : (s.goTo x).txReady = s.txReady := rfl
@[simp] theorem goTo_tx (x : St) : (s.goTo x).tx = s.tx := rfl
@[simp] theorem goTo_delivered (x : St) : (s.goTo x).delivered = s.delivered := rfl
@[simp] theorem goTo_rfAck (x : St) : (s.goTo x).rfAck = s.rfAck := rfl
@[simp] theorem goTo_platform (x : St) : (s.goTo x).platform = s.platform := rfl
@[simp] theorem goTo_io (x : St) : (s.goTo x).io = s.io := rfl
@[simp] theorem goTo_mem (x : St) : (s.goTo x).mem = s.mem := rfl
@[simp] theorem goTo_fifo (x : St) : (s.goTo x).fifo = s.fifo := rfl
@[simp] theorem goTo_log (x : St) : (s.goTo x).log = s.log := rfl
@[simp] theorem goTo_script (x : St) : (s.goTo x).script = s.script := rfl

@[simp] theorem setCmd_st (v : Selector) : (s.setCmd v).st = s.st := rfl
@[simp] theorem setCmd_cmd (v : Selector) : (s.setCmd v).cmd = v := rfl
@[simp] theorem setCmd_cnt (v : Selector) : (s.setCmd v).cnt = s.cnt := rfl
@[simp] theorem setCmd_addr (v : Selector) : (s.setCmd v).addr = s.addr := rfl
@[simp] theorem setCmd_data (v : Selector) : (s.setCmd v).data = s.data := rfl
@[simp] theorem setCmd_rst (v : Selector) : (s.setCmd v).rst = s.rst := rfl
@[simp] theorem setCmd_rx (v : Selector) : (s.setCmd v).rx = s.rx := rfl
@[simp] theorem setCmd_txReady (v : Selector) : (s.setCmd v).txReady = s.txReady := rfl
@[simp] theorem setCmd_tx (v : Selector) : (s.setCmd v).tx = s.tx := rfl
@[simp] theorem setCmd_delivered (v : Selector) : (s.setCmd v).delivered = s.delivered := rfl
@[simp] theorem setCmd_rfAck (v : Selector) : (s.setCmd v).rfAck = s.rfAck := rfl
@[simp] theorem setCmd_platform (v : Selector) : (s.setCmd v).platform = s.platform := rfl
@[simp] theorem setCmd_io (v : Selector) : (s.setCmd v).io = s.io := rfl
@[simp] theorem setCmd_mem (v : Selector) : (s.setCmd v).mem = s.mem := rfl
@[simp] theorem setCmd_fifo (v : Selector) : (s.setCmd v).fifo = s.fifo := rfl
@[simp] theorem setCmd_log (v : Selector) : (s.setCmd v).log = s.log := rfl
@[simp] theorem setCmd_script (v : Selector) : (s.setCmd v).script = s.script := rfl

@[simp] theorem setCnt_st (v : Count) : (s.setCnt v).st = s.st := rfl
@[simp] theorem setCnt_cmd (v : Count) : (s.setCnt v).cmd = s.cmd := rfl
@[simp] theorem setCnt_cnt (v : Count) : (s.setCnt v).cnt = v := rfl
@[simp] theorem setCnt_addr (v : Count) : (s.setCnt v).addr = s.addr := rfl
@[simp] theorem setCnt_data (v : Count) : (s.setCnt v).data = s.data := rfl
@[simp] theorem setCnt_rst (v : Count) : (s.setCnt v).rst = s.rst := rfl
@[simp] theorem setCnt_rx (v : Count) : (s.setCnt v).rx = s.rx := rfl
@[simp] theorem setCnt_txReady (v : Count) : (s.setCnt v).txReady = s.txReady := rfl
@[simp] theorem setCnt_tx (v : Count) : (s.setCnt v).tx = s.tx := rfl
@[simp] theorem setCnt_delivered (v : Count) : (s.setCnt v).delivered = s.delivered := rfl
@[simp] theorem setCnt_rfAck (v : Count) : (s.setCnt v).rfAck = s.rfAck := rfl
@[simp] theorem setCnt_platform (v : Count) : (s.setCnt v).platform = s.platform := rfl
@[simp] theorem setCnt_io (v : Count) : (s.setCnt v).io = s.io := rfl
@[simp] theorem setCnt_mem (v : Count) : (s.setCnt v).mem = s.mem := rfl
@[simp] theorem setCnt_fifo (v : Count) : (s.setCnt v).fifo = s.fifo := rfl
@[simp] theorem setCnt_log (v : Count) : (s.setCnt v).log = s.log := rfl
@[simp] theorem setCnt_script (v : Count) : (s.setCnt v).script = s.script := rfl

@[simp] theorem setAddr_st (v : Addr8) : (s.setAddr v).st = s.st := rfl
@[simp] theorem setAddr_cmd (v : Addr8) : (s.setAddr v).cmd = s.cmd := rfl
@[simp] theorem setAddr_cnt (v : Addr8) : (s.setAddr v).cnt = s.cnt := rfl
@[simp] theorem setAddr_addr (v : Addr8) : (s.setAddr v).addr = v := rfl
@[simp] theorem setAddr_data (v : Addr8) : (s.setAddr v).data = s.data := rfl
@[simp] theorem setAddr_rst (v : Addr8) : (s.setAddr v).rst = s.rst := rfl
@[simp] theorem setAddr_rx (v : Addr8) : (s.setAddr v).rx = s.rx := rfl
@[simp] theorem setAddr_txReady (v : Addr8) : (s.setAddr v).txReady = s.txReady := rfl
@[simp] theorem setAddr_tx (v : Addr8) : (s.setAddr v).tx = s.tx := rfl
@[simp] theorem setAddr_delivered (v : Addr8) : (s.setAddr v).delivered = s.delivered := rfl
@[simp] theorem setAddr_rfAck (v : Addr8) : (s.setAddr v).rfAck = s.rfAck := rfl
@[simp] theorem setAddr_platform (v : Addr8) : (s.setAddr v).platform = s.platform := rfl
@[simp] theorem setAddr_io (v : Addr8) : (s.setAddr v).io = s.io := rfl
@[simp] theorem setAddr_mem (v : Addr8) : (s.setAddr v).mem = s.mem := rfl
@[simp] theorem setAddr_fifo (v : Addr8) : (s.setAddr v).fifo = s.fifo := rfl
@[simp] theorem setAddr_log (v : Addr8) : (s.setAddr v).log = s.log := rfl
@[simp] theorem setAddr_script (v : Addr8) : (s.setAddr v).script = s.script := rfl

@[simp] theorem setData_st (v : Byte) : (s.setData v).st = s.st := rfl
@[simp] theorem setData_cmd (v : Byte) : (s.setData v).cmd = s.cmd := rfl
@[simp] theorem setData_cnt (v : Byte) : (s.setData v).cnt = s.cnt := rfl
@[simp] theorem setData_addr (v : Byte) : (s.setData v).addr = s.addr := rfl
@[simp] theorem setData_data (v : Byte) : (s.setData v).data = v := rfl
@[simp] theorem setData_rst (v : Byte) : (s.setData v).rst = s.rst := rfl
@[simp] theorem setData_rx (v : Byte) : (s.setData v).rx = s.rx := rfl
@[simp] theorem setData_txReady (v : Byte) : (s.setData v).txReady = s.txReady := rfl
@[simp] theorem setData_tx (v : Byte) : (s.setData v).tx = s.tx := rfl
@[simp] theorem setData_delivered (v : Byte) : (s.setData v).delivered = s.delivered := rfl
@[simp] theorem setData_rfAck (v : Byte) : (s.setData v).rfAck = s.rfAck := rfl
@[simp] theorem setData_platform (v : Byte) : (s.setData v).platform = s.platform := rfl
@[simp] theorem setData_io (v : Byte) : (s.setData v).io = s.io := rfl
@[simp] theorem setData_mem (v : Byte) : (s.setData v).mem = s.mem := rfl
@[simp] theorem setData_fifo (v : Byte) : (s.setData v).fifo = s.fifo := rfl
@[simp] theorem setData_log (v : Byte) : (s.setData v).log = s.log := rfl
@[simp] theorem setData_script (v : Byte) : (s.setData v).script = s.script := rfl

@[simp] theorem setRst_st (v : Bool) : (s.setRst v).st = s.st := rfl
@[simp] theorem setRst_cmd (v : Bool) : (s.setRst v).cmd = s.cmd := rfl
@[simp] theorem setRst_cnt (v : Bool) : (s.setRst v).cnt = s.cnt := rfl
@[simp] theorem setRst_addr (v : Bool) : (s.setRst v).addr = s.addr := rfl
@[simp] theorem setRst_data (v : Bool) : (s.setRst v).data = s.data := rfl
@[simp] theorem setRst_rst (v : Bool) : (s.setRst v).rst = v := rfl
@[simp] theorem setRst_rx (v : Bool) : (s.setRst v).rx = s.rx := rfl
@[simp] theorem setRst_txReady (v : Bool) : (s.setRst v).txReady = s.txReady := rfl
@[simp] theorem setRst_tx (v : Bool) : (s.setRst v).tx = s.tx := rfl
@[simp] theorem setRst_delivered (v : Bool) : (s.setRst v).delivered = s.delivered := rfl
@[simp] theorem setRst_rfAck (v : Bool) : (s.setRst v).rfAck = s.rfAck := rfl
@[simp] theorem setRst_platform (v : Bool) : (s.setRst v).platform = s.platform := rfl
@[simp] theorem setRst_io (v : Bool) : (s.setRst v).io = s.io := rfl
@[simp] theorem setRst_mem (v : Bool) : (s.setRst v).mem = s.mem := rfl
@[simp] theorem setRst_fifo (v : Bool) : (s.setRst v).fifo = s.fifo := rfl
@[simp] theorem setRst_log (v : Bool) : (s.setRst v).log = s.log := rfl
@[simp] theorem setRst_script (v : Bool) : (s.setRst v).script = s.script := rfl

@[simp] theorem setRx_st (l : List Byte) : (s.setRx l).st = s.st := rfl
@[simp] theorem setRx_cmd (l : List Byte) : (s.setRx l).cmd = s.cmd := rfl
@[simp] theorem setRx_cnt (l : List Byte) : (s.setRx l).cnt = s.cnt := rfl
@[simp] theorem setRx_addr (l : List Byte) : (s.setRx l).addr = s.addr := rfl
@[simp] theorem setRx_data (l : List Byte) : (s.setRx l).data = s.data := rfl
@[simp] theorem setRx_rst (l : List Byte) : (s.setRx l).rst = s.rst := rfl
@[simp] theorem setRx_rx (l : List Byte) : (s.setRx l).rx = l := rfl
@[simp] theorem setRx_txReady (l : List Byte) : (s.setRx l).txReady = s.txReady := rfl
@[simp] theorem setRx_tx (l : List Byte) : (s.setRx l).tx = s.tx := rfl
@[simp] theorem setRx_delivered (l : List Byte) : (s.setRx l).delivered = s.delivered := rfl
@[simp] theorem setRx_rfAck (l : List Byte) : (s.setRx l).rfAck = s.rfAck := rfl
@[simp] theorem setRx_platform (l : List Byte) : (s.setRx l).platform = s.platform := rfl
@[simp] theorem setRx_io (l : List Byte) : (s.setRx l).io = s.io := rfl
@[simp] theorem setRx_mem (l : List Byte) : (s.setRx l).mem = s.mem := rfl
@[simp] theorem setRx_fifo (l : List Byte) : (s.setRx l).fifo = s.fifo := rfl
@[simp] theorem setRx_log (l : List Byte) : (s.setRx l).log = s.log := rfl
@[simp] theorem setRx_script (l : List Byte) : (s.setRx l).script = s.script := rfl

@[simp] theorem setTxReady_st (v : Bool) : (s.setTxReady v).st = s.st := rfl
@[simp] theorem setTxReady_cmd (v : Bool) : (s.setTxReady v).cmd = s.cmd := rfl
@[simp] theorem setTxReady_cnt (v : Bool) : (s.setTxReady v).cnt = s.cnt := rfl
@[simp] theorem setTxReady_addr (v : Bool) : (s.setTxReady v).addr = s.addr := rfl
@[simp] theorem setTxReady_data (v : Bool) : (s.setTxReady v).data = s.data := rfl
@[simp] theorem setTxReady_rst (v : Bool) : (s.setTxReady v).rst = s.rst := rfl
@[simp] theorem setTxReady_rx (v : Bool) : (s.setTxReady v).rx = s.rx := rfl
@[simp] theorem setTxReady_txReady (v : Bool) : (s.setTxReady v).txReady = v := rfl
@[simp] theorem setTxReady_tx (v : Bool) : (s.setTxReady v).tx = s.tx := rfl
@[simp] theorem setTxReady_delivered (v : Bool) : (s.setTxReady v).delivered = s.delivered := rfl
@[simp] theorem setTxReady_rfAck (v : Bool) : (s.setTxReady v).rfAck = s.rfAck := rfl
@[simp] theorem setTxReady_platform (v : Bool) : (s.setTxReady v).platform = s.platform := rfl
@[simp] theorem setTxReady_io (v : Bool) : (s.setTxReady v).io = s.io := rfl
@[simp] theorem setTxReady_mem (v : Bool) : (s.setTxReady v).mem = s.mem := rfl
@[simp] theorem setTxReady_fifo (v : Bool) : (s.setTxReady v).fifo = s.fifo := rfl
@[simp] theorem setTxReady_log (v : Bool) : (s.setTxReady v).log = s.log := rfl
@[simp] theorem setTxReady_script (v : Bool) : (s.setTxReady v).script = s.script := rfl

@[simp] theorem setTx_st (l : List Byte) : (s.setTx l).st = s.st := rfl
@[simp] theorem setTx_cmd (l : List Byte) : (s.setTx l).cmd = s.cmd := rfl
@[simp] theorem setTx_cnt (l : List Byte) : (s.setTx l).cnt = s.cnt := rfl
@[simp] theorem setTx_addr (l : List Byte) : (s.setTx l).addr = s.addr := rfl
@[simp] theorem setTx_data (l : List Byte) : (s.setTx l).data = s.data := rfl
@[simp] theorem setTx_rst (l : List Byte) : (s.setTx l).rst = s.rst := rfl
@[simp] theorem setTx_rx (l : List Byte) : (s.setTx l).rx = s.rx := rfl
@[simp] theorem setTx_txReady (l : List Byte) : (s.setTx l).txReady = s.txReady := rfl
@[simp] theorem setTx_tx (l : List Byte) : (s.setTx l).tx = l := rfl
@[simp] theorem setTx_delivered (l : List Byte) : (s.setTx l).delivered = s.delivered := rfl
@[simp] theorem setTx_rfAck (l : List Byte) : (s.setTx l).rfAck = s.rfAck := rfl
@[simp] theorem setTx_platform (l : List Byte) : (s.setTx l).platform = s.platform := rfl
@[simp] theorem setTx_io (l : List Byte) : (s.setTx l).io = s.io := rfl
@[simp] theorem setTx_mem (l : List Byte) : (s.setTx l).mem = s.mem := rfl
@[simp] theorem setTx_fifo (l : List Byte) : (s.setTx l).fifo = s.fifo := rfl
@[simp] theorem setTx_log (l : List Byte) : (s.setTx l).log = s.log := rfl
@[simp] theorem setTx_script (l : List Byte) : (s.setTx l).script = s.script := rfl

@[simp] theorem setDelivered_st (l : List Byte) : (s.setDelivered l).st = s.st := rfl
@[simp] theorem setDelivered_cmd (l : List Byte) : (s.setDelivered l).cmd = s.cmd := rfl
@[simp] theorem setDelivered_cnt (l : List Byte) : (s.setDelivered l).cnt = s.cnt := rfl
@[simp] theorem setDelivered_addr (l : List Byte) : (s.setDelivered l).addr = s.addr := rfl
@[simp] theorem setDelivered_data (l : List Byte) : (s.setDelivered l).data = s.data := rfl
@[simp] theorem setDelivered_rst (l : List Byte) : (s.setDelivered l).rst = s.rst := rfl
@[simp] theorem setDelivered_rx (l : List Byte) : (s.setDelivered l).rx = s.rx := rfl
@[simp] theorem setDelivered_txReady (l : List Byte) : (s.setDelivered l).txReady = s.txReady := rfl
@[simp] theorem setDelivered_tx (l : List Byte) : (s.setDelivered l).tx = s.tx := rfl
@[simp] theorem setDelivered_delivered (l : List Byte) : (s.setDelivered l).delivered = l := rfl
@[simp] theorem setDelivered_rfAck (l : List Byte) : (s.setDelivered l).rfAck = s.rfAck := rfl
@[simp] theorem setDelivered_platform (l : List Byte) : (s.setDelivered l).platform = s.platform := rfl
@[simp] theorem setDelivered_io (l : List Byte) : (s.setDelivered l).io = s.io := rfl
@[simp] theorem setDelivered_mem (l : List Byte) : (s.setDelivered l).mem = s.mem := rfl
@[simp] theorem setDelivered_fifo (l : List Byte) : (s.setDelivered l).fifo = s.fifo := rfl
@[simp] theorem setDelivered_log (l : List Byte) : (s.setDelivered l).log = s.log := rfl
@[simp] theorem setDelivered_script (l : List Byte) : (s.setDelivered l).script = s.script := rfl

@[simp] theorem setRfAck_st (v : Bool) : (s.setRfAck v).st = s.st := rfl
@[simp] theorem setRfAck_cmd (v : Bool) : (s.setRfAck v).cmd = s.cmd := rfl
@[simp] theorem setRfAck_cnt (v : Bool) : (s.setRfAck v).cnt = s.cnt := rfl
@[simp] theorem setRfAck_addr (v : Bool) : (s.setRfAck v).addr = s.addr := rfl
@[simp] theorem setRfAck_data (v : Bool) : (s.setRfAck v).data = s.data := rfl
@[simp] theorem setRfAck_rst (v : Bool) : (s.setRfAck v).rst = s.rst := rfl
@[simp] theorem setRfAck_rx (v : Bool) : (s.setRfAck v).rx = s.rx := rfl
@[simp] theorem setRfAck_txReady (v : Bool) : (s.setRfAck v).txReady = s.txReady := rfl
@[simp] theorem setRfAck_tx (v : Bool) : (s.setRfAck v).tx = s.tx := rfl
@[simp] theorem setRfAck_delivered (v : Bool) : (s.setRfAck v).delivered = s.delivered := rfl
@[simp] theorem setRfAck_rfAck (v : Bool) : (s.setRfAck v).rfAck = v := rfl
@[simp] theorem setRfAck_platform (v : Bool) : (s.setRfAck v).platform = s.platform := rfl
@[simp] theorem setRfAck_io (v : Bool) : (s.setRfAck v).io = s.io := rfl
@[simp] theorem setRfAck_mem (v : Bool) : (s.setRfAck v).mem = s.mem := rfl
@[simp] theorem setRfAck_fifo (v : Bool) : (s.setRfAck v).fifo = s.fifo := rfl
@[simp] theorem setRfAck_log (v : Bool) : (s.setRfAck v).log = s.log := rfl
@[simp] theorem setRfAck_script (v : Bool) : (s.setRfAck v).script = s.script := rfl

@[simp] theorem setFifo_st (l : List Byte) : (s.setFifo l).st = s.st := rfl
@[simp] theorem setFifo_cmd (l : List Byte) : (s.setFifo l).cmd = s.cmd := rfl
@[simp] theorem setFifo_cnt (l : List Byte) : (s.setFifo l).cnt = s.cnt := rfl
@[simp] theorem setFifo_addr (l : List Byte) : (s.setFifo l).addr = s.addr := rfl
@[simp] theorem setFifo_data (l : List Byte) : (s.setFifo l).data = s.data := rfl
@[simp] theorem setFifo_rst (l : List Byte) : (s.setFifo l).rst = s.rst := rfl
@[simp] theorem setFifo_rx (l : List Byte) : (s.setFifo l).rx = s.rx := rfl
@[simp] theorem setFifo_txReady (l : List Byte) : (s.setFifo l).txReady = s.txReady := rfl
@[simp] theorem setFifo_tx (l : List Byte) : (s.setFifo l).tx = s.tx := rfl
@[simp] theorem setFifo_delivered (l : List Byte) : (s.setFifo l).delivered = s.delivered := rfl
@[simp] theorem setFifo_rfAck (l : List Byte) : (s.setFifo l).rfAck = s.rfAck := rfl
@[simp] theorem setFifo_platform (l : List Byte) : (s.setFifo l).platform = s.platform := rfl
@[simp] theorem setFifo_io (l : List Byte) : (s.setFifo l).io = s.io := rfl
@[simp] theorem setFifo_mem (l : List Byte) : (s.setFifo l).mem = s.mem := rfl
@[simp] theorem setFifo_fifo (l : List Byte) : (s.setFifo l).fifo = l := rfl
@[simp] theorem setFifo_log (l : List Byte) : (s.setFifo l).log = s.log := rfl
@[simp] theorem setFifo_script (l : List Byte) : (s.setFifo l).script = s.script := rfl

@[simp] theorem record_st (x : Access) : (s.record x).st = s.st := rfl
@[simp] theorem record_cmd (x : Access) : (s.record x).cmd = s.cmd := rfl
@[simp] theorem record_cnt (x : Access) : (s.record x).cnt = s.cnt := rfl
@[simp] theorem record_addr (x : Access) : (s.record x).addr = s.addr := rfl
@[simp] theorem record_data (x : Access) : (s.record x).data = s.data := rfl
@[simp] theorem record_rst (x : Access) : (s.record x).rst = s.rst := rfl
@[simp] theorem record_rx (x : Access) : (s.record x).rx = s.rx := rfl
@[simp] theorem record_txReady (x : Access) : (s.record x).txReady = s.txReady := rfl
@[simp] theorem record_tx (x : Access) : (s.record x).tx = s.tx := rfl
@[simp] theorem record_delivered (x : Access) : (s.record x).delivered = s.delivered := rfl
@[simp] theorem record_rfAck (x : Access) : (s.record x).rfAck = s.rfAck := rfl
@[simp] theorem record_platform (x : Access) : (s.record x).platform = s.platform := rfl
@[simp] theorem record_io (x : Access) : (s.record x).io = s.io := rfl
@[simp] theorem record_mem (x : Access) : (s.record x).mem = s.mem := rfl
@[simp] theorem record_fifo (x : Access) : (s.record x).fifo = s.fifo := rfl
@[simp] theorem record_log (x : Access) : (s.record x).log = s.log ++ [x] := rfl
@[simp] theorem record_script (x : Access) : (s.record x).script = s.script := rfl

@[simp] theorem setScript_st (l : List Move) : (s.setScript l).st = s.st := rfl
@[simp] theorem setScript_cmd (l : List Move) : (s.setScript l).cmd = s.cmd := rfl
@[simp] theorem setScript_cnt (l : List Move) : (s.setScript l).cnt = s.cnt := rfl
@[simp] theorem setScript_addr (l : List Move) : (s.setScript l).addr = s.addr := rfl
@[simp] theorem setScript_data (l : List Move) : (s.setScript l).data = s.data := rfl
@[simp] theorem setScript_rst (l : List Move) : (s.setScript l).rst = s.rst := rfl
@[simp] theorem setScript_rx (l : List Move) : (s.setScript l).rx = s.rx := rfl
@[simp] theorem setScript_txReady (l : List Move) : (s.setScript l).txReady = s.txReady := rfl
@[simp] theorem setScript_tx (l : List Move) : (s.setScript l).tx = s.tx := rfl
@[simp] theorem setScript_delivered (l : List Move) : (s.setScript l).delivered = s.delivered := rfl
@[simp] theorem setScript_rfAck (l : List Move) : (s.setScript l).rfAck = s.rfAck := rfl
@[simp] theorem setScript_platform (l : List Move) : (s.setScript l).platform = s.platform := rfl
@[simp] theorem setScript_io (l : List Move) : (s.setScript l).io = s.io := rfl
@[simp] theorem setScript_mem (l : List Move) : (s.setScript l).mem = s.mem := rfl
@[simp] theorem setScript_fifo (l : List Move) : (s.setScript l).fifo = s.fifo := rfl
@[simp] theorem setScript_log (l : List Move) : (s.setScript l).log = s.log := rfl
@[simp] theorem setScript_script (l : List Move) : (s.setScript l).script = l := rfl

@[simp] theorem setCells_st (sp : Space) (m : List Host.Cell) : (s.setCells sp m).st = s.st := rfl
@[simp] theorem setCells_cmd (sp : Space) (m : List Host.Cell) : (s.setCells sp m).cmd = s.cmd := rfl
@[simp] theorem setCells_cnt (sp : Space) (m : List Host.Cell) : (s.setCells sp m).cnt = s.cnt := rfl
@[simp] theorem setCells_addr (sp : Space) (m : List Host.Cell) : (s.setCells sp m).addr = s.addr := rfl
@[simp] theorem setCells_data (sp : Space) (m : List Host.Cell) : (s.setCells sp m).data = s.data := rfl
@[simp] theorem setCells_rst (sp : Space) (m : List Host.Cell) : (s.setCells sp m).rst = s.rst := rfl
@[simp] theorem setCells_rx (sp : Space) (m : List Host.Cell) : (s.setCells sp m).rx = s.rx := rfl
@[simp] theorem setCells_txReady (sp : Space) (m : List Host.Cell) : (s.setCells sp m).txReady = s.txReady := rfl
@[simp] theorem setCells_tx (sp : Space) (m : List Host.Cell) : (s.setCells sp m).tx = s.tx := rfl
@[simp] theorem setCells_delivered (sp : Space) (m : List Host.Cell) : (s.setCells sp m).delivered = s.delivered := rfl
@[simp] theorem setCells_rfAck (sp : Space) (m : List Host.Cell) : (s.setCells sp m).rfAck = s.rfAck := rfl
@[simp] theorem setCells_platform (sp : Space) (m : List Host.Cell) : (s.setCells sp m).platform = s.platform := rfl
@[simp] theorem setCells_fifo (sp : Space) (m : List Host.Cell) : (s.setCells sp m).fifo = s.fifo := rfl
@[simp] theorem setCells_log (sp : Space) (m : List Host.Cell) : (s.setCells sp m).log = s.log := rfl
@[simp] theorem setCells_script (sp : Space) (m : List Host.Cell) : (s.setCells sp m).script = s.script := rfl
@[simp] theorem setCells_io_io (m : List Host.Cell) : (s.setCells .io m).io = m := rfl
@[simp] theorem setCells_io_mem (m : List Host.Cell) : (s.setCells .io m).mem = s.mem := rfl
@[simp] theorem setCells_memory_io (m : List Host.Cell) : (s.setCells .memory m).io = s.io := rfl
@[simp] theorem setCells_memory_mem (m : List Host.Cell) : (s.setCells .memory m).mem = m := rfl
@[simp] theorem cells_io : s.cells .io = s.io := rfl
@[simp] theorem cells_memory : s.cells .memory = s.mem := rfl

end Sys2Proof.Machine
end

