-- ==== Sys2Proof/Laws/Memory.lean ====
section
/-! SUPPORT. The storage operations: read after write, and the canonical form. -/

namespace Sys2Proof.Machine

theorem Memory.wf_nil : Memory.wf [] := by decide

theorem Memory.wf_tail {c : Host.Cell} {m : List Host.Cell} (h : Memory.wf (c :: m)) : Memory.wf m :=
  ⟨(List.pairwise_cons.mp h.1).2, fun x hx => h.2 x (List.mem_cons_of_mem _ hx)⟩

theorem Memory.read_cons_same (a : Nat) (v : Byte) (m : List Host.Cell)
    (h : Memory.read m a = Memory.unlisted) : Memory.read (Memory.cons a v m) a = v := by
  unfold Memory.cons
  split
  · simp_all
  · simp [Memory.read]

theorem Memory.read_cons_other {a b : Nat} (v : Byte) (m : List Host.Cell) (h : a ≠ b) :
    Memory.read (Memory.cons a v m) b = Memory.read m b := by
  unfold Memory.cons
  split
  · rfl
  · simp [Memory.read, h]

/-- In a list in canonical form nothing stands below the first address. -/
theorem Memory.read_below {m : List Host.Cell} {a : Nat} (h : ∀ c ∈ m, a < c.1) :
    Memory.read m a = Memory.unlisted := by
  induction m with
  | nil => rfl
  | cons c r ih =>
    have hc := h c (by simp)
    simp [Memory.read, Nat.ne_of_gt hc, ih fun x hx => h x (List.mem_cons_of_mem _ hx)]

theorem Memory.read_write_same {m : List Host.Cell} (h : Memory.wf m) (a : Nat) (v : Byte) :
    Memory.read (Memory.write m a v) a = v := by
  induction m with
  | nil => exact Memory.read_cons_same a v [] rfl
  | cons c r ih =>
    obtain ⟨b, w⟩ := c
    have hb := (List.pairwise_cons.mp h.1).1
    unfold Memory.write
    split
    · next hlt =>
      refine Memory.read_cons_same a v _ (Memory.read_below fun x hx => ?_)
      rcases List.mem_cons.mp hx with rfl | hx
      · exact hlt
      · exact lt_trans hlt (hb x hx)
    · split
      · next heq => subst heq; exact Memory.read_cons_same a v r (Memory.read_below hb)
      · next hne => simp [Memory.read, Ne.symm hne, ih (Memory.wf_tail h)]

theorem Memory.read_write_other (m : List Host.Cell) {a b : Nat} (v : Byte) (h : a ≠ b) :
    Memory.read (Memory.write m a v) b = Memory.read m b := by
  induction m with
  | nil => exact Memory.read_cons_other v [] h
  | cons c r ih =>
    obtain ⟨x, w⟩ := c
    unfold Memory.write
    split
    · exact Memory.read_cons_other v _ h
    · split
      · next heq => subst heq; simp [Memory.read_cons_other v r h, Memory.read, h]
      · simp [Memory.read, ih]

theorem Memory.mem_cons {a : Nat} {v : Byte} {m : List Host.Cell} {c : Host.Cell}
    (h : c ∈ Memory.cons a v m) : c = (a, v) ∨ c ∈ m := by
  unfold Memory.cons at h
  split at h
  · exact .inr h
  · simpa using h

theorem Memory.mem_write {a : Nat} {v : Byte} {m : List Host.Cell} {c : Host.Cell}
    (h : c ∈ Memory.write m a v) : c = (a, v) ∨ c ∈ m := by
  induction m with
  | nil => exact Memory.mem_cons h
  | cons x r ih =>
    obtain ⟨b, w⟩ := x
    unfold Memory.write at h
    split at h
    · exact Memory.mem_cons h
    · split at h
      · exact (Memory.mem_cons h).imp id (List.mem_cons_of_mem _)
      · rcases List.mem_cons.mp h with rfl | h
        · simp
        · exact (ih h).imp id (List.mem_cons_of_mem _)

theorem Memory.cons_wf {a : Nat} {m : List Host.Cell} (v : Byte) (h : Memory.wf m)
    (ha : ∀ c ∈ m, a < c.1) : Memory.wf (Memory.cons a v m) := by
  unfold Memory.cons
  split
  · exact h
  · next hv =>
    refine ⟨List.pairwise_cons.mpr ⟨ha, h.1⟩, fun c hc => ?_⟩
    rcases List.mem_cons.mp hc with rfl | hc
    · exact hv
    · exact h.2 c hc

theorem Memory.write_wf {m : List Host.Cell} (h : Memory.wf m) (a : Nat) (v : Byte) :
    Memory.wf (Memory.write m a v) := by
  induction m with
  | nil => exact Memory.cons_wf v h (by simp)
  | cons c r ih =>
    obtain ⟨b, w⟩ := c
    have hb := (List.pairwise_cons.mp h.1).1
    unfold Memory.write
    split
    · next hlt =>
      refine Memory.cons_wf v h fun x hx => ?_
      rcases List.mem_cons.mp hx with rfl | hx
      · exact hlt
      · exact lt_trans hlt (hb x hx)
    · split
      · next heq => subst heq; exact Memory.cons_wf v (Memory.wf_tail h) hb
      · next hlt hne =>
        have hr := ih (Memory.wf_tail h)
        refine ⟨List.pairwise_cons.mpr ⟨fun x hx => ?_, hr.1⟩, fun x hx => ?_⟩
        · rcases Memory.mem_write hx with rfl | hx
          · exact lt_of_le_of_ne (not_lt.mp hlt) (Ne.symm hne)
          · exact hb x hx
        · rcases List.mem_cons.mp hx with rfl | hx
          · exact h.2 _ (by simp)
          · exact hr.2 x hx

/-- The storage of the machine after reset is in canonical form. -/
theorem reset_memory_wf : Memory.wf State.reset.io ∧ Memory.wf State.reset.mem := by decide

end Sys2Proof.Machine
end

