-- ==== Sys2Proof/Laws/Ops.lean ====
section
/-! SUPPORT. What each shared operation can do: cited by proofs instead of unfolding it. -/

namespace Sys2Proof.Machine

variable {s t : State} {sp : Space} {a : Addr8} {v : Byte}

/-! ## The platform -/

@[simp] theorem afterRead_st : (s.afterRead sp a).st = s.st := by unfold State.afterRead; split <;> rfl
@[simp] theorem afterRead_cmd : (s.afterRead sp a).cmd = s.cmd := by unfold State.afterRead; split <;> rfl
@[simp] theorem afterRead_cnt : (s.afterRead sp a).cnt = s.cnt := by unfold State.afterRead; split <;> rfl
@[simp] theorem afterRead_addr : (s.afterRead sp a).addr = s.addr := by unfold State.afterRead; split <;> rfl
@[simp] theorem afterRead_data : (s.afterRead sp a).data = s.data := by unfold State.afterRead; split <;> rfl
@[simp] theorem afterRead_rst : (s.afterRead sp a).rst = s.rst := by unfold State.afterRead; split <;> rfl
@[simp] theorem afterRead_rx : (s.afterRead sp a).rx = s.rx := by unfold State.afterRead; split <;> rfl
@[simp] theorem afterRead_txReady : (s.afterRead sp a).txReady = s.txReady := by unfold State.afterRead; split <;> rfl
@[simp] theorem afterRead_tx : (s.afterRead sp a).tx = s.tx := by unfold State.afterRead; split <;> rfl
@[simp] theorem afterRead_delivered : (s.afterRead sp a).delivered = s.delivered := by unfold State.afterRead; split <;> rfl
@[simp] theorem afterRead_rfAck : (s.afterRead sp a).rfAck = s.rfAck := by unfold State.afterRead; split <;> rfl
@[simp] theorem afterRead_platform : (s.afterRead sp a).platform = s.platform := by unfold State.afterRead; split <;> rfl
@[simp] theorem afterRead_io : (s.afterRead sp a).io = s.io := by unfold State.afterRead; split <;> rfl
@[simp] theorem afterRead_mem : (s.afterRead sp a).mem = s.mem := by unfold State.afterRead; split <;> rfl
@[simp] theorem afterRead_log : (s.afterRead sp a).log = s.log := by unfold State.afterRead; split <;> rfl
@[simp] theorem afterRead_script : (s.afterRead sp a).script = s.script := by unfold State.afterRead; split <;> rfl

@[simp] theorem afterWrite_st : (s.afterWrite sp a v).st = s.st := by
  unfold State.afterWrite; split
  · rfl
  · split <;> rfl
@[simp] theorem afterWrite_cmd : (s.afterWrite sp a v).cmd = s.cmd := by
  unfold State.afterWrite; split
  · rfl
  · split <;> rfl
@[simp] theorem afterWrite_cnt : (s.afterWrite sp a v).cnt = s.cnt := by
  unfold State.afterWrite; split
  · rfl
  · split <;> rfl
@[simp] theorem afterWrite_addr : (s.afterWrite sp a v).addr = s.addr := by
  unfold State.afterWrite; split
  · rfl
  · split <;> rfl
@[simp] theorem afterWrite_data : (s.afterWrite sp a v).data = s.data := by
  unfold State.afterWrite; split
  · rfl
  · split <;> rfl
@[simp] theorem afterWrite_rst : (s.afterWrite sp a v).rst = s.rst := by
  unfold State.afterWrite; split
  · rfl
  · split <;> rfl
@[simp] theorem afterWrite_rx : (s.afterWrite sp a v).rx = s.rx := by
  unfold State.afterWrite; split
  · rfl
  · split <;> rfl
@[simp] theorem afterWrite_txReady : (s.afterWrite sp a v).txReady = s.txReady := by
  unfold State.afterWrite; split
  · rfl
  · split <;> rfl
@[simp] theorem afterWrite_tx : (s.afterWrite sp a v).tx = s.tx := by
  unfold State.afterWrite; split
  · rfl
  · split <;> rfl
@[simp] theorem afterWrite_delivered : (s.afterWrite sp a v).delivered = s.delivered := by
  unfold State.afterWrite; split
  · rfl
  · split <;> rfl
@[simp] theorem afterWrite_rfAck : (s.afterWrite sp a v).rfAck = s.rfAck := by
  unfold State.afterWrite; split
  · rfl
  · split <;> rfl
@[simp] theorem afterWrite_platform : (s.afterWrite sp a v).platform = s.platform := by
  unfold State.afterWrite; split
  · rfl
  · split <;> rfl
@[simp] theorem afterWrite_log : (s.afterWrite sp a v).log = s.log := by
  unfold State.afterWrite; split
  · rfl
  · split <;> rfl
@[simp] theorem afterWrite_script : (s.afterWrite sp a v).script = s.script := by
  unfold State.afterWrite; split
  · rfl
  · split <;> rfl

@[simp] theorem afterRead_fifo_of_ne (h : s.platform.kind sp a ≠ .fifo) : (s.afterRead sp a).fifo = s.fifo := by
  simp [State.afterRead, h]

theorem afterRead_fifo (h : s.platform.kind sp a = .fifo) : (s.afterRead sp a).fifo = s.fifo.tail := by
  simp [State.afterRead, h]

@[simp] theorem cells_setCells_same (m : List Host.Cell) : (s.setCells sp m).cells sp = m := by cases sp <;> rfl

@[simp] theorem cells_setCells_other {sp' : Space} (m : List Host.Cell) (h : sp ≠ sp') :
    (s.setCells sp m).cells sp' = s.cells sp' := by
  cases sp <;> cases sp' <;> first | rfl | exact absurd rfl h

/-- The storage after a write: the byte the address names takes the value, if it names one. -/
theorem afterWrite_cells (c : Space) :
    (s.afterWrite sp a v).cells c =
      match s.platform.cell sp a with
      | some (c', x) => if c' = c then Memory.write (s.cells c) x v else s.cells c
      | none => s.cells c := by
  unfold State.afterWrite
  cases h : s.platform.cell sp a with
  | none => dsimp only; split <;> cases c <;> rfl
  | some p =>
    obtain ⟨c', x⟩ := p
    dsimp only
    split
    · next h' => subst h'; simp
    · next h' => simp [h']

theorem afterWrite_fifo (h : s.platform.kind sp a = .fifo) : (s.afterWrite sp a v).fifo = s.fifo ++ [v] := by
  simp [State.afterWrite, Platform.cell, h]

theorem afterWrite_fifo_of_ne (h : s.platform.kind sp a ≠ .fifo) : (s.afterWrite sp a v).fifo = s.fifo := by
  unfold State.afterWrite
  split
  · rfl
  · simp [h]

theorem afterWrite_wf (hi : Memory.wf s.io) (hm : Memory.wf s.mem) :
    Memory.wf (s.afterWrite sp a v).io ∧ Memory.wf (s.afterWrite sp a v).mem := by
  unfold State.afterWrite
  split
  · next c x _ =>
    cases c
    · exact ⟨Memory.write_wf hi x v, hm⟩
    · exact ⟨hi, Memory.write_wf hm x v⟩
  · split <;> exact ⟨hi, hm⟩

theorem sampleValue_cell {c : Space} {x : Nat} (h : s.platform.cell sp a = some (c, x)) :
    s.sampleValue sp a = Memory.read (s.cells c) x := by simp [State.sampleValue, h]

theorem sampleValue_volatile (h : s.platform.kind sp a = .volatile) :
    s.sampleValue sp a = Config.rfRead s.log sp a := by simp [State.sampleValue, Platform.cell, h]

theorem sampleValue_fifo (h : s.platform.kind sp a = .fifo) :
    s.sampleValue sp a = s.fifo.headD (Config.rfRead s.log sp a) := by
  simp [State.sampleValue, Platform.cell, h]

/-- All that `MemRead` can do. -/
theorem memRead_eq (s : State) (sp : Space) (a : Addr8) :
    memRead s sp a =
      if s.platform.valid sp a then
        .ok (s.sampleValue sp a, (s.afterRead sp a).record (.read sp a (s.sampleValue sp a)))
      else .error (.platformFault sp a .read) := by
  unfold memRead checkAccess
  cases s.platform.valid sp a <;> rfl

/-- All that `MemWrite` can do. -/
theorem memWrite_eq (s : State) (sp : Space) (a : Addr8) (v : Byte) :
    memWrite s sp a v =
      if s.platform.valid sp a then .ok ((s.afterWrite sp a v).record (.write sp a v))
      else .error (.platformFault sp a .write) := by
  unfold memWrite checkAccess
  cases s.platform.valid sp a <;> rfl

/-! ## The burst steps -/

/-- All that READ-SAMPLE can do. -/
theorem readSample_eq (s : State) :
    readSample s =
      if s.platform.valid s.space s.addr then
        .next ((((s.afterRead s.space s.addr).record (.read s.space s.addr (s.sampleValue s.space s.addr))).setData
          (s.sampleValue s.space s.addr)).goTo .rdSend)
      else .fault (.platformFault s.space s.addr .read) := by
  unfold readSample
  rw [memRead_eq]
  cases s.platform.valid s.space s.addr <;> rfl

/-- All that WRITE-PERFORM can do. -/
theorem writePerform_eq (s : State) :
    writePerform s =
      if s.platform.valid s.space s.addr then
        .next (((s.afterWrite s.space s.addr s.data).record (.write s.space s.addr s.data)).countDown .wrRecv)
      else .fault (.platformFault s.space s.addr .write) := by
  unfold writePerform
  rw [memWrite_eq]
  cases s.platform.valid s.space s.addr <;> rfl

theorem countDown_eq (s : State) (x : St) :
    s.countDown x = (s.setCnt (s.cnt - 1)).goTo (if s.cnt - 1 = 0 then .hdr else x) := by
  simp [State.countDown, State.countDone]

/-- One more byte operation of a read burst. -/
theorem readBurst_succ (n : Nat) (s : State) :
    readBurst (n + 1) s =
      if s.rfAck then
        if s.platform.valid s.space s.addr then
          let t := (((s.afterRead s.space s.addr).record (.read s.space s.addr (s.sampleValue s.space s.addr))).setData
            (s.sampleValue s.space s.addr)).goTo .rdSend
          if s.txReady then readBurst n (readSend t) else .next t
        else .fault (.platformFault s.space s.addr .read)
      else .next s := by
  simp only [readBurst, readSample_eq]
  cases s.rfAck <;> cases s.platform.valid s.space s.addr <;> simp

/-- One more byte operation of a write burst whose payload byte has arrived. -/
theorem writeBurst_succ_cons (n : Nat) (s : State) (d : Byte) (r : List Byte) (h : s.rx = d :: r) :
    writeBurst (n + 1) s =
      let t := writeRecv (s.setRx r) d
      if s.rfAck then
        if s.platform.valid s.space s.addr then
          writeBurst n (((t.afterWrite s.space s.addr d).record (.write s.space s.addr d)).countDown .wrRecv)
        else .fault (.platformFault s.space s.addr .write)
      else .next t := by
  have h1 : (writeRecv (s.setRx r) d).space = s.space := rfl
  have h2 : (writeRecv (s.setRx r) d).addr = s.addr := rfl
  have h3 : (writeRecv (s.setRx r) d).data = d := rfl
  have h4 : (writeRecv (s.setRx r) d).platform = s.platform := rfl
  have h5 : (writeRecv (s.setRx r) d).rfAck = s.rfAck := rfl
  simp only [writeBurst, h, writePerform_eq, h1, h2, h3, h4, h5]
  cases s.rfAck <;> cases s.platform.valid s.space s.addr <;> simp

/-- A write burst whose next payload byte has not arrived waits. -/
theorem writeBurst_succ_nil (n : Nat) (s : State) (h : s.rx = []) : writeBurst (n + 1) s = .next s := by
  simp [writeBurst, h]

/-! ## External reset and the receive port -/

/-- All that a reset can make of what is in flight. -/
theorem settleInFlight_eq (s : State) (p : Bool) :
    settleInFlight s p =
      if p = true ∧ s.st = .rdSample then
        if s.platform.valid s.space s.addr then
          .ok ((s.afterRead s.space s.addr).record (.read s.space s.addr (s.sampleValue s.space s.addr)))
        else .error (.platformFault s.space s.addr .read)
      else if p = true ∧ s.st = .wrWrite then
        if s.platform.valid s.space s.addr then
          .ok ((s.afterWrite s.space s.addr s.data).record (.write s.space s.addr s.data))
        else .error (.platformFault s.space s.addr .write)
      else if p = true ∧ s.st = .rdSend then .ok (s.setTx (s.tx ++ [s.data]))
      else .ok s := by
  unfold settleInFlight
  cases p
  · simp
  · cases hv : s.platform.valid s.space s.addr <;> cases h : s.st <;> simp [memRead_eq, memWrite_eq, hv]

/-- A command is taken exactly at a released command boundary where it has arrived whole. -/
theorem fetch_eq_some {i : Instr} :
    fetch s = some (i, t) ↔
      s.rst = false ∧ s.st = .hdr ∧ ∃ rest, decode s.rx = .ok (i, rest) ∧ t = s.setRx rest := by
  unfold fetch
  cases hr : s.rst <;> cases hs : s.st <;> simp
  cases hd : decode s.rx with
  | error e => simp
  | ok p =>
    obtain ⟨j, rest⟩ := p
    simp only [Option.some.injEq, Prod.mk.injEq, Except.ok.injEq]
    constructor
    · rintro ⟨rfl, rfl⟩
      exact ⟨rest, ⟨rfl, rfl⟩, rfl⟩
    · rintro ⟨r, ⟨rfl, rfl⟩, rfl⟩
      exact ⟨rfl, rfl⟩

end Sys2Proof.Machine
end

