-- ==== Sys2Proof/Laws/PerInstr.lean ====
section
/-! SUPPORT. Each command's own bytes against its row of opcode_table.json. -/

namespace Sys2Proof.Laws.HeaderMatch

/-- `match` under the mask 0xE0, and the row's length in bytes, payload apart, as opcode_table.json gives them. -/
def tableRow : Instr → Byte × Nat
  | .readIO8S _ _ => (0x20, 2)
  | .readIO8X _ _ => (0x00, 3)
  | .readMem8S _ _ => (0x60, 2)
  | .readMem8X _ _ => (0x40, 3)
  | .writeIO8S _ _ => (0xA0, 2)
  | .writeIO8X _ _ => (0x80, 3)
  | .writeMem8S _ _ => (0xE0, 2)
  | .writeMem8X _ _ => (0xC0, 3)

/-- The encoding has the row's length and its header byte matches the row under the mask. -/
def Statement (i : Instr) : Prop :=
  (encode i).length = (tableRow i).2 ∧ (encode i).headD 0 &&& 0xE0#8 = (tableRow i).1

/-- A small header is fixed by the selector, but for the count. -/
theorem small_head (sel : Selector) (c : BitVec 5) (a : Addr8) :
    (encodeSmall sel c a).headD 0 &&& 0xE0#8 = sel ++ 0b100000#6 := by
  have h : ∀ (sel : BitVec 2) (c : BitVec 5),
      (sel ++ 1#1 ++ c : BitVec 8) &&& 0xE0#8 = sel ++ 0b100000#6 := by decide
  exact h sel c

theorem readIO8S (c : BitVec 5) (a : Addr8) : Statement (.readIO8S c a) :=
  ⟨rfl, small_head 0b00#2 c a⟩

theorem readMem8S (c : BitVec 5) (a : Addr8) : Statement (.readMem8S c a) :=
  ⟨rfl, small_head 0b01#2 c a⟩

theorem writeIO8S (c : BitVec 5) (a : Addr8) : Statement (.writeIO8S c a) :=
  ⟨rfl, small_head 0b10#2 c a⟩

theorem writeMem8S (c : BitVec 5) (a : Addr8) : Statement (.writeMem8S c a) :=
  ⟨rfl, small_head 0b11#2 c a⟩

/-- An extended header is fixed by the selector and the high part of the count. -/
theorem extended_head (sel : Selector) (n : Count) (a : Addr8) :
    (encodeExtended sel n a).headD 0 &&& 0xE0#8 = sel ++ 0#6 := by
  have h : ∀ (sel : BitVec 2) (c : BitVec 5), (sel ++ 0#1 ++ c : BitVec 8) &&& 0xE0#8 = sel ++ 0#6 := by decide
  exact h sel _

theorem readIO8X (n : Count) (a : Addr8) : Statement (.readIO8X n a) :=
  ⟨rfl, extended_head 0b00#2 n a⟩

theorem readMem8X (n : Count) (a : Addr8) : Statement (.readMem8X n a) :=
  ⟨rfl, extended_head 0b01#2 n a⟩

theorem writeIO8X (n : Count) (a : Addr8) : Statement (.writeIO8X n a) :=
  ⟨rfl, extended_head 0b10#2 n a⟩

theorem writeMem8X (n : Count) (a : Addr8) : Statement (.writeMem8X n a) :=
  ⟨rfl, extended_head 0b11#2 n a⟩

end Sys2Proof.Laws.HeaderMatch
end

