-- ==== Sys2Proof/Laws/Runs.lean ====
section
/-! SUPPORT. Runs and rounds taken apart, and what feeding moves leaves alone. -/

namespace Sys2Proof.Machine

variable (s t : State) (ms : List Move) (e : Environment) (k : Nat)

@[simp] theorem feed_script : (s.feed ms).script = s.script ++ ms := rfl
@[simp] theorem feed_st : (s.feed ms).st = s.st := rfl
@[simp] theorem feed_cmd : (s.feed ms).cmd = s.cmd := rfl
@[simp] theorem feed_cnt : (s.feed ms).cnt = s.cnt := rfl
@[simp] theorem feed_addr : (s.feed ms).addr = s.addr := rfl
@[simp] theorem feed_data : (s.feed ms).data = s.data := rfl
@[simp] theorem feed_rst : (s.feed ms).rst = s.rst := rfl
@[simp] theorem feed_rx : (s.feed ms).rx = s.rx := rfl
@[simp] theorem feed_txReady : (s.feed ms).txReady = s.txReady := rfl
@[simp] theorem feed_tx : (s.feed ms).tx = s.tx := rfl
@[simp] theorem feed_delivered : (s.feed ms).delivered = s.delivered := rfl
@[simp] theorem feed_rfAck : (s.feed ms).rfAck = s.rfAck := rfl
@[simp] theorem feed_platform : (s.feed ms).platform = s.platform := rfl
@[simp] theorem feed_io : (s.feed ms).io = s.io := rfl
@[simp] theorem feed_mem : (s.feed ms).mem = s.mem := rfl
@[simp] theorem feed_fifo : (s.feed ms).fifo = s.fifo := rfl
@[simp] theorem feed_log : (s.feed ms).log = s.log := rfl

@[simp] theorem feed_nil : s.feed [] = s := by simp [State.feed]

/-- A step with a move scheduled. -/
theorem step_scheduled {s : State} {m : Move} (h : s.script = m :: ms) : step s = applyMove m (s.setScript ms) := by
  simp [step, h]

/-- A step with nothing scheduled and no whole command to take. -/
theorem step_of_fetch_none {s : State} (h : s.script = []) (hf : fetch s = none) : step s = fsmStep s := by
  simp [step, h, hf]

theorem run_zero : core.run 0 s = .next s := rfl

/-- A run begins with a step. -/
theorem run_succ : core.run (k + 1) s = match step s with
    | .next t => core.run k t
    | .fault f => .fault f
    | .refused r => .refused r := by
  have h : core.step s = step s := rfl
  cases hs : step s <;> simp [Host.Core.run, h, hs]

/-- A run that answers a state took a step and went on from there. -/
theorem run_succ_next {s t : State} (h : core.run (k + 1) s = .next t) :
    ∃ u, step s = .next u ∧ core.run k u = .next t := by
  rw [run_succ] at h
  cases hs : step s with
  | next u => rw [hs] at h; exact ⟨u, rfl, h⟩
  | fault f => rw [hs] at h; cases h
  | refused r => rw [hs] at h; cases h

/-- A run of a state that steps to itself stays there. -/
theorem run_of_step_self {s : State} (h : step s = .next s) : ∀ k, core.run k s = .next s
  | 0 => rfl
  | k + 1 => by rw [run_succ, h]; exact run_of_step_self h k

/-- Two runs end to end. -/
theorem run_add {t : State} (j : Nat) : ∀ {i : Nat} {s : State}, core.run i s = .next t →
    core.run (i + j) s = core.run j t
  | 0, s, h => by cases h; rw [Nat.zero_add]
  | i + 1, s, h => by
    obtain ⟨u, hu, h⟩ := run_succ_next _ h
    rw [Nat.succ_add, run_succ, hu]
    exact run_add j h

/-- A round without moves is one step. -/
theorem envRound_nil : envRound [] s = step s := by
  rw [envRound, feed_nil]
  show core.run (0 + 1) s = _
  rw [run_succ]
  cases step s <;> rfl

/-- A round with moves is one step for each. -/
theorem envRound_cons (m : Move) : envRound (m :: ms) s = core.run (ms.length + 1) (s.feed (m :: ms)) := by
  rw [envRound, List.length_cons, Nat.max_eq_right (Nat.le_add_left 1 ms.length)]

@[simp] theorem hostInput_send (f : Nat → List Byte) : hostInput f (2 * k) = (f k).map Move.hostSend := by
  simp [hostInput]

@[simp] theorem hostInput_turn (f : Nat → List Byte) : hostInput f (2 * k + 1) = [] := by
  simp only [hostInput]; rw [if_neg (by omega)]

theorem runRounds_zero : runRounds e 0 s = .next s := rfl

/-- One round more. -/
theorem runRounds_succ {s t : State} (h : runRounds e k s = .next t) :
    runRounds e (k + 1) s = envRound (e k) t := by simp [runRounds, h]

end Sys2Proof.Machine
end

