-- ==== Sys2Proof/Tests/Slice0.lean ====
section
/-! SUPPORT. Small tests, with results from the spec's vectors (95_test_vectors.md) and rules, and a witness for the
hypotheses of each statement. -/

namespace Sys2Proof.Tests

open Sys2Proof.Machine

/-! ## Well-formedness: an ill-formed term for each check -/

/-- A good line of R52's examples. -/
def goodLine : AsmLine := ⟨.writeIO8, none, 16, 5, [1, 2, 3, 4, 5]⟩

theorem test_wf_accepts : goodLine.wf = true := by decide

/-- Address 256 (R52: 0 to 255). -/
theorem test_wf_address : ({ goodLine with address := 256 } : AsmLine).addressOk = false := by decide

/-- Count 8192 (R52: 0 to 8191). -/
theorem test_wf_count : (⟨.readIO8, none, 0, 8192, []⟩ : AsmLine).countOk = false := by decide

/-- Count 32 in the forced small form (R52: at most 31). -/
theorem test_wf_small_count : (⟨.readIO8, some .small, 0, 32, []⟩ : AsmLine).countOk = false := by decide

/-- A read with a payload, and a write with one byte too few (R52). -/
theorem test_wf_payload :
    (⟨.readMem8, none, 0, 1, [7]⟩ : AsmLine).payloadOk = false ∧
    ({ goodLine with count := 6 } : AsmLine).payloadOk = false := by decide

/-- A transaction with one payload byte too few (R48). -/
theorem test_wf_transaction :
    (⟨.writeIO8S 3 5, [1, 2]⟩ : Transaction).wf = false ∧ (⟨.writeIO8S 2 5, [1, 2]⟩ : Transaction).wf = true := by
  decide

/-- The three examples of R52, spelled as bytes. -/
theorem test_assemble :
    goodLine.assemble.map Transaction.bytes = some [0xA5, 0x10, 1, 2, 3, 4, 5] ∧
    (⟨.readMem8, some .extended, 0x21, 32, []⟩ : AsmLine).assemble.map Transaction.bytes = some [0x40, 0x20, 0x21] ∧
    (⟨.readIO8, some .extended, 0, 0, []⟩ : AsmLine).assemble.map Transaction.bytes = some [0, 0, 0] := by decide

/-! ## Decoding: words written out from R43 and R44, field by field -/

/-- READIO8.S: `001 ccccc`, `aaaaaaaa`; and V-D04. -/
theorem test_decode_readIO8S :
    decode [0b00100010, 0b00111111] = .ok (.readIO8S 2 0x3F, []) ∧
    decode [0b00111111, 0b00000001] = .ok (.readIO8S 31 1, []) := by decide
/-- READIO8.X: `000 ccccc`, `llllllll`, `aaaaaaaa`; V-D18, V-D02. -/
theorem test_decode_readIO8X :
    decode [0b00001010, 0b10111100, 0b10000001] = .ok (.readIO8X 0x0ABC 0x81, []) ∧
    decode [0b00011111, 0b11111111, 0b00000000] = .ok (.readIO8X 8191 0, []) := by decide
/-- READMEM8.S: `011 ccccc`; V-D07. -/
theorem test_decode_readMem8S : decode [0b01100001, 0b01100000] = .ok (.readMem8S 1 0x60, []) := by decide
/-- READMEM8.X: `010 ccccc`; V-D06. -/
theorem test_decode_readMem8X :
    decode [0b01011111, 0b11111111, 0b00100001] = .ok (.readMem8X 8191 0x21, []) := by decide
/-- WRITEIO8.S: `101 ccccc`; W7, the payload left. -/
theorem test_decode_writeIO8S : decode [0b10100101, 0b00010000, 1, 2] = .ok (.writeIO8S 5 0x10, [1, 2]) := by decide
/-- WRITEIO8.X: `100 ccccc`; V-D10, V-D20. -/
theorem test_decode_writeIO8X :
    decode [0b10000001, 0b00000000, 0b01000100] = .ok (.writeIO8X 256 0x44, []) ∧
    decode [0b10011111, 0b00000000, 0b01000100] = .ok (.writeIO8X 7936 0x44, []) := by decide
/-- WRITEMEM8.S: `111 ccccc`; V-D16. -/
theorem test_decode_writeMem8S : decode [0b11111111, 0b00110000] = .ok (.writeMem8S 31 0x30, []) := by decide
/-- WRITEMEM8.X: `110 ccccc`; `C0 02 21`. -/
theorem test_decode_writeMem8X : decode [0b11000000, 0b00000010, 0b00100001] = .ok (.writeMem8X 2 0x21, []) := by
  decide

/-- Bytes still missing are named (R59). -/
theorem test_decode_rejects :
    decode [] = .error .noHeader ∧ decode [0x40] = .error .noCountLow ∧ decode [0x40, 0x20] = .error .noAddress ∧
    decode [0x61] = .error .noAddress := by decide

/-- The encoder on the same words. -/
theorem test_encode :
    encode (.readIO8X 0x0ABC 0x81) = [0x0A, 0xBC, 0x81] ∧ encode (.writeMem8S 31 0x30) = [0xFF, 0x30] := by decide

/-- Each row's `match`, with operand bits of zero, decodes to the row's command (opcode_table.json). -/
theorem test_table_words :
    decodeTableWord 8 0x20 = some (.readIO8S 0 0) ∧ decodeTableWord 24 0x00 = some (.readIO8X 0 0) ∧
    decodeTableWord 8 0x60 = some (.readMem8S 0 0) ∧ decodeTableWord 24 0x40 = some (.readMem8X 0 0) ∧
    decodeTableWord 8 0xA0 = some (.writeIO8S 0 0) ∧ decodeTableWord 24 0x443480 = some (.writeIO8X 0x34 0x44) ∧
    decodeTableWord 16 0x30E1 = some (.writeMem8S 1 0x30) ∧ decodeTableWord 8 0xC0 = some (.writeMem8X 0 0) := by
  decide

/-! ## States to test on -/

/-- The configuration PLAIN. -/
def plain : State := { State.reset with platform := ⟨.storage, []⟩ }

/-- The configuration BAD(IO, F0). -/
def bad : State := { State.reset with platform := ⟨.storage, [((.io, 0xF0), .refused)]⟩ }

/-- The configuration FIFO(q) at IO[2C]. -/
def queue (q : List Byte) : State :=
  { State.reset with platform := ⟨.storage, [((.io, 0x2C), .fifo)]⟩, fifo := q }

/-- Bytes the host has sent. -/
def sent (s : State) (l : List Byte) : State := { s with rx := l }

/-- The block inside a command. -/
def inside (s : State) (x : St) (c : Selector) (n : Count) (a : Addr8) : State :=
  { s with st := x, cmd := c, cnt := n, addr := a }

/-- What is asked of the next state, if there is one. -/
def after {α : Type} (f : State → α) : Result → Option α
  | .next t => some (f t)
  | .fault _ => none
  | .refused _ => none

/-- The fault, if there is one. -/
def faultOf : Result → Option Fault
  | .next _ => none
  | .fault f => some f
  | .refused _ => none

/-! ## One step each -/

/-- V-A01 under DRAW: separate draws, sent in order. -/
theorem test_readIO8S_draws :
    after (·.tx) (step (sent State.reset [0x22, 0x3F])) =
      some [Config.rfRead [] .io 0x3F, Config.rfRead [.read .io 0x3F (Config.rfRead [] .io 0x3F)] .io 0x3F] := rfl

/-- P5: three samples of a FIFO register. -/
theorem test_readIO8S_fifo :
    after (fun t => (t.tx, t.fifo)) (step (sent (queue [0x10, 0x20, 0x30]) [0x23, 0x2C])) =
      some ([0x10, 0x20, 0x30], []) := by decide

/-- V-A10: the same address of the other space is another register. -/
theorem test_readIO8X_space :
    after (fun t => (t.tx, t.idle)) (step (sent { plain with io := [(0, 2)], mem := [(0, 1)] } [0x00, 0x01, 0x00])) =
      some ([2], true) := by decide

/-- V-A02: count 0. -/
theorem test_readMem8S_zero :
    after (fun t => (t.tx, t.log, t.st, t.cmd, t.addr)) (step (sent plain [0x60, 0x3F])) =
      some ([], [], .hdr, 0b01, 0x3F) := by decide

/-- V-A09. -/
theorem test_readMem8S_stored :
    after (fun t => (t.tx, t.log)) (step (sent { plain with mem := [(0, 1)] } [0x61, 0x00])) =
      some ([1], [.read .memory 0 1]) := by decide

/-- The last command of P3, its count cut to 2: two samples of one address. -/
theorem test_readMem8X_burst :
    after (fun t => (t.tx, t.cnt)) (step (sent { plain with mem := [(0x21, 0xBB), (0x22, 1)] } [0x40, 0x02, 0x21])) =
      some ([0xBB, 0xBB], 0) := by decide

/-- W7 and V-A05: five writes to one address; the byte after the payload stays. -/
theorem test_writeIO8S_burst :
    after (fun t => (t.log, t.io, t.rx, t.data)) (step (sent plain [0xA5, 0xFF, 1, 2, 3, 4, 5, 0x20])) =
      some ([.write .io 0xFF 1, .write .io 0xFF 2, .write .io 0xFF 3, .write .io 0xFF 4, .write .io 0xFF 5],
        [(0xFF, 5)], [0x20], 5) := by decide

/-- V-A06: one payload byte short. -/
theorem test_writeIO8S_truncated :
    after (fun t => (t.st, t.cnt, t.log, t.hung)) (step (sent plain [0xA3, 0x05, 1, 2])) =
      some (.wrRecv, 1, [.write .io 5 1, .write .io 5 2], true) := by decide

/-- V-A04: an extended count of 0 takes no payload. -/
theorem test_writeIO8X_zero :
    after (fun t => (t.rx, t.log, t.st)) (step (sent plain [0x80, 0x00, 0x44, 0x20, 0x44])) =
      some ([0x20, 0x44], [], .hdr) := by decide

/-- V-A03: the last byte stays. -/
theorem test_writeMem8S_stored :
    after (fun t => (t.mem, t.io)) (step (sent plain [0xE2, 0x80, 0x11, 0x22])) = some ([(0x80, 0x22)], []) := by decide

/-- The third command of P3. -/
theorem test_writeMem8X_burst :
    after (fun t => (t.log, t.mem)) (step (sent plain [0xC0, 0x02, 0x21, 0xAA, 0xBB])) =
      some ([.write .memory 0x21 0xAA, .write .memory 0x21 0xBB], [(0x21, 0xBB)]) := by decide

/-- V-A07: the transport never accepts. -/
theorem test_read_waits_for_transport :
    after (fun t => (t.st, t.cnt, t.tx, t.hung)) (step (sent { plain with txReady := false } [0x21, 0x10])) =
      some (.rdSend, 1, [], true) := by decide

/-- V-F01, V-F02, V-F03, V-F04. -/
theorem test_platform_fault :
    faultOf (step (sent bad [0x21, 0xF0])) = some (.platformFault .io 0xF0 .read) ∧
    faultOf (step (sent bad [0xA1, 0xF0, 0x55])) = some (.platformFault .io 0xF0 .write) ∧
    after (·.idle) (step (sent bad [0x20, 0xF0])) = some true ∧
    after (·.tx) (step (sent bad [0x61, 0xF0])) = some [0] := by decide

/-- The continuation of P4: the byte taken as payload ends the burst, the next is a header. -/
theorem test_lost_framing :
    after (fun t => (t.st, t.rx)) (fsmStep (sent (inside plain .wrRecv 0b10 1 5) [0x20, 0x07])) =
      some (.wrWrite, [0x07]) ∧
    after (fun t => (t.st, t.io)) (fsmStep { inside plain .wrWrite 0b10 1 5 with data := 0x20 }) =
      some (.hdr, [(5, 0x20)]) ∧
    after (fun t => (t.st, t.cnt)) (fsmStep (sent plain [0x07])) = some (.cntLo, 0x0700) := by decide

/-- V-R01 and V-R02: reset in `S_WR_RECV` and in `S_CNTLO`. -/
theorem test_reset_abandons :
    after (fun t => (t.st, t.rst, t.io))
      (step { inside plain .wrRecv 0b10 1 0x40 with io := [(0x40, 0x11)], script := [.assertReset ⟨false, none, none⟩] }) =
      some (.hdr, true, [(0x40, 0x11)]) ∧
    after (fun t => (t.st, t.rx))
      (step { sent (inside plain .cntLo 0b00 0x1F00 0) [0x20] with script := [.assertReset ⟨false, some [], none⟩] }) =
      some (.hdr, []) := by decide

/-- A reset that performs the write in flight (R93). -/
theorem test_reset_in_flight :
    after (fun t => (t.st, t.mem, t.log))
      (step { inside plain .wrWrite 0b11 1 0x40 with data := 7, script := [.assertReset ⟨true, none, none⟩] }) =
      some (.hdr, [(0x40, 7)], [.write .memory 0x40 7]) := by decide

/-- An address that shares a byte of the other space (R33). -/
theorem test_shared_byte :
    after (·.mem) (step (sent { plain with platform := ⟨.storage, [((.io, 5), .sharedWith .memory 0x25)]⟩ } [0xA1, 5, 9])) =
      some [(0x25, 9)] := by decide

/-- A table word placed after reset runs as the first step. -/
theorem test_withFetchWord :
    after (fun t => (t.addr, t.log)) (step (plain.withFetchWord 16 0x40A2)) =
      some (0x40, [.write .io 0x40 0, .write .io 0x40 0]) := by decide

/-! ## Witnesses: concrete data that meet the hypotheses of each statement, each clause at a boundary value -/

/-- The invariant of a state of PLAIN inside a command. -/
theorem inside_inv (x : St) (c : Selector) (n : Count) (a : Addr8)
    (hr : x = .rdSample ∨ x = .rdSend → c.getLsbD 1 = false ∧ n ≠ 0)
    (hw : x = .wrRecv ∨ x = .wrWrite → c.getLsbD 1 = true ∧ n ≠ 0)
    (hc : x = .cntLo → n.extractLsb' 0 8 = 0) : (inside plain x c n a).Inv where
  ioWf := Memory.wf_nil
  memWf := Memory.wf_nil
  reading := hr
  writing := hw
  highPart := hc
  inReset := fun h => Bool.noConfusion h

/-- Both header forms, the smallest and the largest count. -/
theorem witness_decoding :
    decode ([0x20, 0x00, 0x00] : List Byte) = .ok (.readIO8S 0 0, [0x00]) ∧
    decode ([0xFF, 0xFF, 0xFF] : List Byte) = .ok (.writeMem8S 31 0xFF, [0xFF]) ∧
    decode ([0x00, 0x00, 0x00] : List Byte) = .ok (.readIO8X 0 0, []) ∧
    decode ([0xDF, 0xFF, 0xFF] : List Byte) = .ok (.writeMem8X 8191 0xFF, []) ∧
    (0x20#8).getLsbD 5 = true ∧ (0xDF#8).getLsbD 5 = false := by decide

theorem witness_BothFormsBehaveAlike : 32 ≤ (Instr.writeMem8X 32 0).count.toNat := by decide

theorem witness_AssemblerLinesAssemble :
    (⟨.readIO8, some .small, 255, 31, []⟩ : AsmLine).wf = true ∧
    (⟨.readIO8, none, 255, 8191, []⟩ : AsmLine).wf = true ∧ (⟨.readIO8, none, 0, 8192, []⟩ : AsmLine).wf = false := by
  decide

/-- HeaderRow, CountLowRow, AddressRow, WriteRecvRow: waiting and with a byte. -/
theorem witness_receiving_rows :
    plain.rst = false ∧ plain.st = .hdr ∧ plain.rx = [] ∧
    (sent plain [0x3F]).rst = false ∧ (sent plain [0x3F]).st = .hdr ∧ (sent plain [0x3F]).rx = [0x3F] ∧
    (sent plain [0x1F]).rx = [0x1F] ∧ (0x3F#8).getLsbD 5 = true ∧ (0x1F#8).getLsbD 5 = false ∧
    (inside plain .cntLo 0 0x1F00 0).st = .cntLo ∧ (inside plain .cntLo 0 0x1F00 0).rx = [] ∧
    (sent (inside plain .cntLo 0 0x1F00 0) [0xFF]).rx = [0xFF] ∧
    (inside plain .addr 0 0 0).st = .addr ∧ (sent (inside plain .addr 0b10 8191 0) [0xFF]).rx = [0xFF] ∧
    (inside plain .wrRecv 0b10 1 0).st = .wrRecv ∧ (sent (inside plain .wrRecv 0b10 1 0) [0xFF]).rx = [0xFF] := by
  decide

/-- ReadSampleRow and WritePerformRow: a refused and a valid address, each space. -/
theorem witness_access_rows :
    (inside bad .rdSample 0b00 1 0xF0).rst = false ∧ (inside bad .rdSample 0b00 1 0xF0).st = .rdSample ∧
    (inside bad .rdSample 0b00 1 0xF0).rfAck = true ∧ bad.platform.valid .io 0xF0 = false ∧
    bad.platform.valid .memory 0xF0 = true ∧ (0b00#2).getLsbD 0 = false ∧ (0b01#2).getLsbD 0 = true ∧
    (inside bad .wrWrite 0b10 1 0xF0).st = .wrWrite ∧ (inside bad .wrWrite 0b11 8191 0xFF).st = .wrWrite := by decide

/-- ReadSampleRow, second clause: a state with the invariant whose step leads to `S_RD_SAMPLE`. -/
theorem witness_reach_sample :
    (inside plain .rdSend 0b00 2 0).Inv ∧ ∃ t, fsmStep (inside plain .rdSend 0b00 2 0) = .next t ∧ t.st = .rdSample :=
  ⟨inside_inv _ _ _ _ (by decide) (by decide) (by decide), _, rfl, rfl⟩

/-- WriteRecvRow, second clause. -/
theorem witness_reach_recv :
    (sent (inside plain .addr 0b10 1 0) [7]).Inv ∧
    ∃ t, fsmStep (sent (inside plain .addr 0b10 1 0) [7]) = .next t ∧ t.st = .wrRecv :=
  ⟨⟨Memory.wf_nil, Memory.wf_nil, by decide, by decide, by decide, by decide⟩, _, rfl, rfl⟩

/-- ReadSendRow: the transport refuses, accepts; the last byte and one before it. -/
theorem witness_ReadSendRow :
    (inside plain .rdSend 0b00 1 0).st = .rdSend ∧ (inside plain .rdSend 0b00 1 0).rst = false ∧
    (inside plain .rdSend 0b00 1 0).txReady = true ∧
    (inside { plain with txReady := false } .rdSend 0b00 2 0).txReady = false ∧
    ∃ t, fsmStep (inside plain .rdSample 0b00 1 0) = .next t := ⟨rfl, rfl, rfl, rfl, _, rfl⟩

/-- AccessesUseTheLatch. -/
theorem witness_AccessesUseTheLatch :
    (inside plain .wrWrite 0b11 1 0xFF).st = .wrWrite ∧ (inside plain .wrWrite 0b11 1 0xFF).rst = false ∧
    (inside plain .wrWrite 0b11 1 0xFF).rfAck = true ∧
    ∃ t, fsmStep (inside plain .wrWrite 0b11 1 0xFF) = .next t := ⟨rfl, rfl, rfl, _, rfl⟩

/-- RegistersHaveTheirWriters: a step that changes each register. -/
theorem witness_RegistersHaveTheirWriters :
    (∃ t, fsmStep (sent plain [0xFF]) = .next t ∧ t.cmd ≠ plain.cmd ∧ t.cnt ≠ plain.cnt) ∧
    (∃ t, fsmStep (sent (inside plain .addr 0 0 0) [1]) = .next t ∧ t.addr ≠ 0) ∧
    (∃ t, fsmStep (sent (inside plain .wrRecv 0b10 1 0) [1]) = .next t ∧ t.data ≠ plain.data) :=
  ⟨⟨_, rfl, by decide, by decide⟩, ⟨_, rfl, by decide⟩, ⟨_, rfl, by decide⟩⟩

/-- BurstEndsOnlyByItsLastOperation: the last operation, and one before it. -/
theorem witness_BurstEndsOnlyByItsLastOperation :
    (∃ t, fsmStep (inside plain .rdSend 0b00 1 0) = .next t ∧ t.st = .hdr) ∧
    (∃ t, fsmStep (inside plain .wrWrite 0b10 2 0) = .next t ∧ t.st = .wrRecv) := ⟨⟨_, rfl, rfl⟩, ⟨_, rfl, rfl⟩⟩

/-- ReadBurstCountsDown: all of the operations of a count of 1. -/
theorem witness_ReadBurstCountsDown :
    (inside plain .rdSample 0b00 1 0xFF).rst = false ∧ (inside plain .rdSample 0b00 1 0xFF).st = .rdSample ∧
    (inside plain .rdSample 0b00 1 0xFF).rfAck = true ∧ (inside plain .rdSample 0b00 1 0xFF).txReady = true ∧
    plain.platform.valid .io 0xFF = true ∧ 1 ≤ (inside plain .rdSample 0b00 1 0xFF).cnt.toNat := by decide

/-- WriteBurstCountsDown: one operation of the largest count. -/
theorem witness_WriteBurstCountsDown :
    let s := sent (inside plain .wrRecv 0b11 8191 0) [7]
    s.rst = false ∧ s.st = .wrRecv ∧ s.rfAck = true ∧ 1 ≤ s.rx.length ∧ s.platform.valid s.space s.addr = true ∧
      1 ≤ s.cnt.toNat := by decide

/-- SamplesAreSentOneByOne: a run that stops with a sample not yet sent. -/
theorem witness_SamplesAreSentOneByOne :
    (sent plain [0x21, 0x10]).st = .hdr ∧ ∃ t, fsmRun 3 (sent plain [0x21, 0x10]) = .next t ∧ t.st = .rdSend :=
  ⟨rfl, _, rfl, rfl⟩

/-- PayloadIsWrittenByteByByte: a whole burst, and one that stops with a byte not yet written. -/
theorem witness_PayloadIsWrittenByteByByte :
    (inside plain .wrRecv 0b10 1 5).st = .wrRecv ∧ 2 ≤ 2 * (inside plain .wrRecv 0b10 1 5).cnt.toNat ∧
    (∃ t, fsmRun 2 (sent (inside plain .wrRecv 0b10 1 5) [7]) = .next t ∧ t.st = .hdr) ∧
    (∃ t, fsmRun 1 (sent (inside plain .wrRecv 0b10 1 5) [7]) = .next t ∧ t.st = .wrWrite) :=
  ⟨rfl, by decide, ⟨_, rfl, rfl⟩, ⟨_, rfl, rfl⟩⟩

/-- ChannelKeepsByteOrder. -/
theorem witness_ChannelKeepsByteOrder :
    (∃ t, fsmStep (sent plain [1, 2]) = .next t) ∧
    ({ plain with script := [.hostSend 7] } : State).script = [.hostSend 7] ∧
    ({ plain with script := [.hostTake], tx := [1, 2] } : State).script = [.hostTake] ∧
    ({ plain with script := [.hostTake], tx := [1, 2] } : State).tx = [1, 2] := ⟨⟨_, rfl⟩, rfl, rfl, rfl⟩

/-- The four command statements: each form, with counts 0, 1, 31 and 8191. -/
theorem witness_command_forms :
    (∃ c, Instr.readIO8S 0 0xFF = .readIO8S c 0xFF ∧ 0 = c.toNat) ∧
    (∃ m, Instr.readIO8X 8191 0xFF = .readIO8X m 0xFF ∧ 8191 = m.toNat) ∧
    (∃ c, Instr.readMem8S 31 0 = .readMem8S c 0 ∧ 31 = c.toNat) ∧
    (∃ m, Instr.readMem8X 1 0 = .readMem8X m 0 ∧ 1 = m.toNat) ∧
    (∃ c, Instr.writeIO8S 1 0xFF = .writeIO8S c 0xFF ∧ 1 = c.toNat) ∧
    (∃ m, Instr.writeIO8X 8191 0xFF = .writeIO8X m 0xFF ∧ 8191 = m.toNat) ∧
    (∃ c, Instr.writeMem8S 31 0 = .writeMem8S c 0 ∧ 31 = c.toNat) ∧
    (∃ m, Instr.writeMem8X 0 0 = .writeMem8X m 0 ∧ 0 = m.toNat) :=
  ⟨⟨_, rfl, rfl⟩, ⟨_, rfl, rfl⟩, ⟨_, rfl, rfl⟩, ⟨_, rfl, rfl⟩, ⟨_, rfl, rfl⟩, ⟨_, rfl, rfl⟩, ⟨_, rfl, rfl⟩, ⟨_, rfl, rfl⟩⟩

/-- The four command statements: completing, faulting and truncated. -/
theorem witness_command_states :
    plain.rfAck = true ∧ plain.txReady = true ∧ plain.platform.valid .io 0xFF = true ∧
    plain.platform.valid .memory 0 = true ∧ bad.rfAck = true ∧ bad.platform.valid .io 0xF0 = false ∧
    (sent bad [1]).rx ≠ [] ∧ 1 ≤ (sent plain [1]).rx.length ∧ (sent plain [1]).rx.length < 2 ∧
    (⟨.storage, [((.memory, 0xF0), .refused)]⟩ : Platform).valid .memory 0xF0 = false := by decide

/-- ReadDone and WriteDone: an address of each kind they speak of. -/
theorem witness_kinds :
    State.reset.platform.kind .io 0 = .volatile ∧ plain.platform.cell .memory 0xFF = some (.memory, 0xFF) ∧
    (queue [1]).platform.kind .io 0x2C = .fifo ∧ 1 ≤ (queue [1]).fifo.length ∧ Memory.wf (plain.cells .memory) := by decide

theorem witness_ZeroCountPerformsNothing :
    (Instr.writeIO8S 0 0xFF).count.toNat = 0 ∧ (Instr.readMem8X 0 0xFF).count.toNat = 0 := by decide

/-- WriteThenReadBack: plain storage and a queue. -/
theorem witness_WriteThenReadBack :
    (Instr.writeIO8S 2 0x2C).direction = .write ∧ (Instr.readIO8X 2 0x2C).direction = .read ∧
    (Instr.readIO8X 2 0x2C).space = (Instr.writeIO8S 2 0x2C).space ∧
    (Instr.readIO8X 2 0x2C).address = (Instr.writeIO8S 2 0x2C).address ∧
    (Instr.writeIO8S 2 0x2C).count.toNat = 2 ∧ (Instr.readIO8X 2 0x2C).count.toNat = 2 ∧
    (sent plain [1, 2]).rfAck = true ∧ (sent plain [1, 2]).txReady = true ∧ 2 ≤ (sent plain [1, 2]).rx.length ∧
    plain.platform.valid .io 0x2C = true ∧ plain.platform.cell .io 0x2C = some (.io, 0x2C) ∧
    Memory.wf (plain.cells .io) ∧ (queue []).platform.valid .io 0x2C = true ∧
    (queue []).platform.kind .io 0x2C = .fifo ∧ (queue []).fifo = [] := by decide

/-- ReadCommandFrame and WriteCommandFrame. -/
theorem witness_frames :
    (Instr.readMem8S 1 0).direction = .read ∧ (∃ t, exec (.readMem8S 1 0) plain = .next t) ∧
    (Instr.writeMem8X 1 0xFF).direction = .write ∧ (∃ t, exec (.writeMem8X 1 0xFF) (sent plain [9]) = .next t) ∧
    plain.platform.cell .memory 0xFF ≠ some (.memory, 0xFE) ∧ plain.platform.kind .memory 0xFF ≠ .fifo :=
  ⟨rfl, ⟨_, rfl⟩, rfl, ⟨_, rfl⟩, by decide, by decide⟩

theorem witness_ReadWaitsForTransport :
    let s := { plain with txReady := false }
    (Instr.readIO8S 1 0).direction = .read ∧ 1 ≤ (Instr.readIO8S 1 0).count.toNat ∧ s.rfAck = true ∧
      s.txReady = false ∧ s.platform.valid .io 0 = true ∧ s.rst = false ∧ s.script = [] := by decide

theorem witness_AccessWaitsForPlatform :
    let s := sent { plain with rfAck := false } [7]
    1 ≤ (Instr.readIO8S 1 0).count.toNat ∧ s.rfAck = false ∧ s.platform.valid .io 0 = true ∧
      (Instr.readIO8S 1 0).direction = .read ∧ (Instr.writeIO8X 8191 0).direction = .write ∧ s.rx = [7] := by decide

theorem witness_TruncatedInputHangs :
    (inside plain .cntLo 0 0 0).st = .cntLo ∧ (inside plain .addr 0 1 0).st = .addr ∧
    (inside plain .wrRecv 0b10 1 0).st = .wrRecv ∧ (inside plain .wrRecv 0b10 1 0).rx = [] ∧
    (inside plain .wrRecv 0b10 1 0).script = [] ∧ (inside plain .wrRecv 0b10 1 0).rst = false := by decide

/-- PlatformFaultWhereRefused: a step that faults, one that does not at the same address of the other space, and a
platform that refuses nothing. -/
theorem witness_PlatformFaultWhereRefused :
    (∃ f, fsmStep (inside bad .rdSample 0b00 1 0xF0) = .fault f) ∧
    (∃ t, fsmStep (inside bad .rdSample 0b01 1 0xF0) = .next t) ∧
    (inside bad .wrWrite 0b10 1 0xF0).platform.valid (inside bad .wrWrite 0b10 1 0xF0).space 0xF0 = false ∧
    (∀ sp a, plain.platform.valid sp a = true) :=
  ⟨⟨_, rfl⟩, ⟨_, rfl⟩, by decide, fun _ _ => rfl⟩

theorem witness_StepStopsOnlyAtRefusedAddress : ∃ f, step (sent bad [0x21, 0xF0]) = .fault f := ⟨_, rfl⟩

theorem witness_StepRunsTheDecodedCommand :
    let s := sent plain [0x61, 0x60, 0x20]
    s.script = [] ∧ s.rst = false ∧ s.st = .hdr ∧ decode s.rx = .ok (.readMem8S 1 0x60, [0x20]) := by decide

/-- StepTakesOneRowOtherwise: in reset, inside a command, with a command not yet whole. -/
theorem witness_StepTakesOneRowOtherwise :
    plain.script = [] ∧ ({ plain with rst := true } : State).rst = true ∧ (inside plain .addr 0 0 0).st ≠ .hdr ∧
    decode (sent plain [0x40, 0x20]).rx = .error .noAddress := by decide

theorem witness_CommandRefinesStateMachine :
    let s := sent plain (encode (.writeIO8S 1 5) ++ [7])
    s.st = .hdr ∧ s.rst = false ∧ s.rx = encode (.writeIO8S 1 5) ++ [7] := by decide

/-- StepKeepsInvariant: a state inside a burst. -/
theorem witness_StepKeepsInvariant :
    (inside plain .wrWrite 0b10 1 5).Inv ∧ ∃ t, step (inside plain .wrWrite 0b10 1 5) = .next t :=
  ⟨inside_inv _ _ _ _ (by decide) (by decide) (by decide), _, rfl⟩

/-- CommandStreamCompletes: a write and a read. -/
theorem witness_CommandStreamCompletes :
    let ts : List Transaction := [⟨.writeMem8S 1 0x60, [0x5A]⟩, ⟨.readMem8S 1 0x60, []⟩]
    let s := sent plain (ts.flatMap Transaction.bytes)
    s.Ready ∧ (∀ τ ∈ ts, τ.wf = true ∧ s.platform.valid τ.instr.space τ.instr.address = true) ∧
      s.rx = [0xE1, 0x60, 0x5A, 0x61, 0x60] :=
  ⟨⟨rfl, rfl, rfl, rfl, rfl⟩, by decide, by decide⟩

/-- ExternalResetAbandonsCommand: nothing performed, nothing in flight, a send, and an access of each direction in
flight at a valid and at a refused address. -/
theorem witness_ExternalResetAbandonsCommand :
    let r (b : Bool) : ResetDraw := ⟨b, some [], none⟩
    let s (x : St) (c : Selector) (b : Bool) : State := { inside bad x c 1 0xF0 with script := [.assertReset (r b)] }
    (s .rdSample 0b00 false).script = [.assertReset (r false)] ∧ (r false).performed = false ∧
      (r true).performed = true ∧ (s .addr 0b00 true).st = .addr ∧ (s .rdSend 0b00 true).st = .rdSend ∧
      (s .rdSample 0b01 true).platform.valid (s .rdSample 0b01 true).space 0xF0 = true ∧
      (s .rdSample 0b00 true).platform.valid (s .rdSample 0b00 true).space 0xF0 = false ∧
      (s .wrWrite 0b11 true).platform.valid (s .wrWrite 0b11 true).space 0xF0 = true ∧
      (s .wrWrite 0b10 true).platform.valid (s .wrWrite 0b10 true).space 0xF0 = false := by decide

theorem witness_ResetHasPriority :
    ({ sent plain [0x20] with rst := true } : State).rst = true ∧
    ({ plain with rst := true, script := [.releaseReset] } : State).script = [.releaseReset] := by decide

theorem witness_WritesNeverReachTheBlock : ∃ t, memWrite plain .memory 0xFF 9 = .ok t := ⟨_, rfl⟩

/-- SharedAddressesAreOneByte: an address of the I/O space that names a byte of the Memory space. -/
theorem witness_SharedAddressesAreOneByte :
    let s := { plain with platform := ⟨.storage, [((.io, 5), .sharedWith .memory 0x25)]⟩ }
    s.platform.cell .io 5 = some (.memory, 0x25) ∧ s.platform.cell .memory 0x25 = some (.memory, 0x25) ∧
      Memory.wf (s.cells .memory) := by decide

/-- ScheduledMovesAct: each move first on the schedule; the transport empty, and with a byte for the host. -/
theorem witness_ScheduledMovesAct :
    let s (m : Move) (l : List Byte) : State := { plain with script := [m], tx := l }
    (s .coreRow []).script = [.coreRow] ∧ (s (.hostSend 7) []).script = [.hostSend 7] ∧
      (s .hostTake []).script = [.hostTake] ∧ (s .hostTake []).tx = [] ∧ (s .hostTake [1, 2]).tx = [1, 2] ∧
      (s (.setTxReady false) []).script = [.setTxReady false] ∧
      (s (.setRfAck true) []).script = [.setRfAck true] ∧ (s .releaseReset []).script = [.releaseReset] := by decide

/-- A read burst held up by the transport, then taken up again. -/
def heldRead : State :=
  { inside plain .rdSend 0b00 1 0 with txReady := false, script := [.coreRow, .setTxReady true, .coreRow, .hostTake] }

theorem witness_SamplesAreSentUnderEveryMove :
    (∀ m ∈ heldRead.script, m.isReset = false) ∧ ∃ t, core.run 4 heldRead = .next t ∧ t.delivered = [0] :=
  ⟨by decide, _, rfl, rfl⟩

/-- A write burst held up for want of a payload byte and by the platform, then taken up again. -/
def heldWrite : State :=
  { inside plain .wrRecv 0b10 1 5 with
    rfAck := false, script := [.coreRow, .hostSend 9, .coreRow, .coreRow, .setRfAck true, .coreRow] }

theorem witness_PayloadIsWrittenUnderEveryMove :
    (∀ m ∈ heldWrite.script, m.isReset = false) ∧
    (∀ (j : Nat) (u : State), j < 6 → core.run j heldWrite = .next u → u.inWriteBurst) ∧
    ∃ t, core.run 6 heldWrite = .next t ∧ t.st = .hdr ∧ t.log = [.write .io 5 9] := by
  refine ⟨by decide, fun j u hj h => ?_, _, rfl, rfl, rfl⟩
  match j, hj with
  | 0, _ => cases h; exact .inl rfl
  | 1, _ => cases h; exact .inl rfl
  | 2, _ => cases h; exact .inl rfl
  | 3, _ => cases h; exact .inr rfl
  | 4, _ => cases h; exact .inr rfl
  | 5, _ => cases h; exact .inr rfl

/-- StoppedRunsStayStopped: an idle stop, and a hung one after a round of input. -/
theorem witness_StoppedRunsStayStopped :
    StopsAt (fun _ => []) plain 0 plain ∧ plain.rst = false ∧ plain.idle = true ∧
    ∃ t, StopsAt (fun k => if k = 0 then [.hostSend 0x40] else []) plain 2 t ∧ t.rst = false ∧ t.hung = true :=
  ⟨⟨rfl, by decide, fun _ _ => rfl⟩, by decide, by decide, _,
    ⟨rfl, by decide, fun _ hj => if_neg (by omega)⟩, rfl, rfl⟩

/-- EndlessStreamIsServed and FiniteStreamCompletes: a write of one byte, over and over, and once. -/
theorem witness_streams :
    let τ : Transaction := ⟨.writeMem8S 1 0x60, [0x5A]⟩
    plain.Ready ∧ plain.rx = [] ∧
      (∀ n : Nat, ((fun _ => τ) n).wf = true ∧
        plain.platform.valid ((fun _ => τ) n).instr.space ((fun _ => τ) n).instr.address = true) ∧
      (∀ σ ∈ [τ], σ.wf = true ∧ plain.platform.valid σ.instr.space σ.instr.address = true) :=
  ⟨⟨rfl, rfl, rfl, rfl, rfl⟩, rfl, fun _ => ⟨rfl, rfl⟩, by decide⟩

/-- Two turns of an endless input: one write command a turn (R74, R71). -/
theorem test_rounds :
    after (fun t => (t.log, t.mem, t.idle))
      (runRounds (hostInput fun k => [0xE1, 0x60, BitVec.ofNat 8 (k + 1)]) 4 plain) =
      some ([.write .memory 0x60 1, .write .memory 0x60 2], [(0x60, 2)], true) := by decide

end Sys2Proof.Tests
end

section
/-! PROOFS. Commands write what they read, but for the data buffer (O48), and what each scheduled move does (O51). -/

namespace Sys2Proof.Machine

/-! ## The data buffer at the burst steps -/

@[simp] theorem setData_setData (s : State) (d d' : Byte) : (s.setData d).setData d' = s.setData d' := rfl

@[simp] theorem setData_space (s : State) (d : Byte) : (s.setData d).space = s.space := rfl

@[simp] theorem sampleValue_setData (s : State) (d : Byte) (sp : Space) (a : Addr8) :
    (s.setData d).sampleValue sp a = s.sampleValue sp a := rfl

theorem afterRead_setData (s : State) (d : Byte) (sp : Space) (a : Addr8) :
    (s.setData d).afterRead sp a = (s.afterRead sp a).setData d := by
  unfold State.afterRead
  rw [setData_platform]
  split <;> rfl

/-- The sample overwrites the data buffer (R62). -/
theorem readSample_setData (s : State) (d : Byte) : readSample (s.setData d) = readSample s := by
  rw [readSample_eq, readSample_eq, setData_space, setData_addr, setData_platform, sampleValue_setData,
    afterRead_setData]
  rfl

/-- The payload byte received overwrites the data buffer (R64). -/
theorem writeRecv_setData_setRx (s : State) (d b : Byte) (r : List Byte) :
    writeRecv ((s.setData d).setRx r) b = writeRecv (s.setRx r) b := rfl

@[simp] theorem forgetData_next_setData (s : State) (d : Byte) :
    forgetData (.next (s.setData d)) = forgetData (.next s) := rfl

/-- A read burst samples before it sends, so the byte it finds in the buffer shows in no more than the buffer. -/
theorem forgetData_readBurst_setData (n : Nat) (s : State) (d : Byte) :
    forgetData (readBurst n (s.setData d)) = forgetData (readBurst n s) := by
  cases n with
  | zero => exact forgetData_next_setData s d
  | succ n =>
    simp only [readBurst, readSample_setData, setData_rfAck]
    split
    · rfl
    · exact forgetData_next_setData s d

/-- A write burst receives before it writes, so the byte it finds in the buffer shows in no more than the buffer. -/
theorem forgetData_writeBurst_setData (n : Nat) (s : State) (d : Byte) :
    forgetData (writeBurst n (s.setData d)) = forgetData (writeBurst n s) := by
  cases n with
  | zero => exact forgetData_next_setData s d
  | succ n =>
    cases h : s.rx with
    | nil =>
      rw [writeBurst_succ_nil n s h, writeBurst_succ_nil n (s.setData d) h]
      exact forgetData_next_setData s d
    | cons b r =>
      rw [writeBurst_succ_cons n s b r h, writeBurst_succ_cons n (s.setData d) b r h, writeRecv_setData_setRx]
      rfl

/-! ## Commands -/

/-- Every command latches its operands and runs the burst of its direction (R61, R68 to R71). -/
theorem exec_eq (i : Instr) (s : State) :
    exec i s =
      if i.direction = .read then readBurst i.count.toNat (latchCommand s i.selector i.count i.address)
      else writeBurst i.count.toNat (latchCommand s i.selector i.count i.address) := by
  cases i <;> rfl

/-- Decoding writes `st`, `cmd`, `cnt` and `addr`, whatever they held (R53 to R57). -/
theorem latchCommand_stale (s : State) (x : St) (c : Selector) (m : Count) (b : Addr8) (d : Byte)
    (sel : Selector) (n : Count) (a : Addr8) :
    latchCommand { s with st := x, cmd := c, cnt := m, addr := b, data := d } sel n a =
      (latchCommand s sel n a).setData d := rfl

/-- Settles O48: the operands are latched over what the registers held, and a burst puts a byte into the data buffer
before it takes one out. -/
theorem staleRegistersDoNotMatter : Obligations.StaleRegistersDoNotMatter := by
  intro i s x c n a d
  rw [exec_eq, exec_eq, latchCommand_stale]
  split
  · exact forgetData_readBurst_setData _ _ d
  · exact forgetData_writeBurst_setData _ _ d

/-! ## Scheduled moves -/

theorem hostTake_of_nil {s : State} (h : s.tx = []) : s.hostTake = s := by
  simp [State.hostTake, h]

theorem hostTake_of_cons {s : State} {b : Byte} {r : List Byte} (h : s.tx = b :: r) :
    s.hostTake = (s.setTx r).setDelivered (s.delivered ++ [b]) := by
  simp [State.hostTake, h]

/-- A scheduled move of the host taking a byte. -/
theorem step_hostTake {s : State} {ms : List Move} (h : s.script = .hostTake :: ms) :
    step s = .next (s.setScript ms).hostTake := step_scheduled ms h

/-- Settles O51: the step with a move scheduled is that move, by its constructor. -/
theorem scheduledMovesAct : Obligations.ScheduledMovesAct := by
  intro s ms
  refine ⟨step_scheduled ms, fun _ => step_scheduled ms, fun h => ⟨fun htx => ?empty, fun b r htx => ?byte⟩,
    fun _ => step_scheduled ms, fun _ => step_scheduled ms, step_scheduled ms⟩
  case empty =>
    rw [step_hostTake h, hostTake_of_nil (s := s.setScript ms) htx]
    rfl
  case byte =>
    rw [step_hostTake h, hostTake_of_cons (s := s.setScript ms) htx]
    rfl

end Sys2Proof.Machine
end

section
/-! PROOFS. What one step of the block can do (42_dispatch.md R76): a wait, or one of the seven rows.  From it: which
state writes which register (O19), when the block holds its state (O18), its output ports (O16, O45). -/

namespace Sys2Proof.Machine

/-- What READ-SAMPLE answers at an address the platform allows (R62). -/
def State.sampled (s : State) : State :=
  (((s.afterRead s.space s.addr).record (.read s.space s.addr (s.sampleValue s.space s.addr))).setData
    (s.sampleValue s.space s.addr)).goTo .rdSend

/-- What WRITE-PERFORM answers at an address the platform allows (R65). -/
def State.performed (s : State) : State :=
  ((s.afterWrite s.space s.addr s.data).record (.write s.space s.addr s.data)).countDown .wrRecv

theorem readSample_eq_sampled (s : State) :
    readSample s =
      if s.platform.valid s.space s.addr then .next s.sampled else .fault (.platformFault s.space s.addr .read) :=
  readSample_eq s

theorem writePerform_eq_performed (s : State) :
    writePerform s =
      if s.platform.valid s.space s.addr then .next s.performed
      else .fault (.platformFault s.space s.addr .write) :=
  writePerform_eq s

/-! ## Each row as updates of the state -/

@[simp] theorem headerStep_eq (s : State) (h : Byte) :
    headerStep s h =
      ((s.setCmd (headerSel h)).setCnt (if headerSmall h then smallCount h else extendedCount h 0)).goTo
        (if headerSmall h then .addr else .cntLo) := by
  unfold headerStep
  cases headerSmall h <;> rfl

@[simp] theorem countLowStep_eq (s : State) (lo : Byte) :
    countLowStep s lo = (s.setCnt (s.cnt.extractLsb' 8 5 ++ lo)).goTo .addr := rfl

@[simp] theorem addressStep_eq (s : State) (a : Byte) :
    addressStep s a =
      (s.setAddr a).goTo (if s.cnt = 0 then .hdr else if s.isWrite then .wrRecv else .rdSample) := by
  simp [addressStep, State.countDone]

@[simp] theorem sampled_eq (s : State) :
    s.sampled =
      (((s.afterRead s.space s.addr).record (.read s.space s.addr (s.sampleValue s.space s.addr))).setData
        (s.sampleValue s.space s.addr)).goTo .rdSend := rfl

@[simp] theorem readSend_eq (s : State) :
    readSend s = ((s.setTx (s.tx ++ [s.data])).setCnt (s.cnt - 1)).goTo (if s.cnt - 1 = 0 then .hdr else .rdSample) :=
  countDown_eq _ _

@[simp] theorem writeRecv_eq (s : State) (d : Byte) : writeRecv s d = (s.setData d).goTo .wrWrite := rfl

@[simp] theorem performed_eq (s : State) :
    s.performed =
      (((s.afterWrite s.space s.addr s.data).record (.write s.space s.addr s.data)).setCnt (s.cnt - 1)).goTo
        (if s.cnt - 1 = 0 then .hdr else .wrRecv) := by
  simp [State.performed, countDown_eq]

/-! ## The rows -/

/-- `RowTaken s t`: a row of the R76 table leads from `s` to `t`, its handshake satisfied. -/
inductive RowTaken (s : State) : State → Prop
  | header {h : Byte} {r : List Byte} (hst : s.st = .hdr) (hrx : s.rx = h :: r) :
      RowTaken s (headerStep (s.setRx r) h)
  | countLow {lo : Byte} {r : List Byte} (hst : s.st = .cntLo) (hrx : s.rx = lo :: r) :
      RowTaken s (countLowStep (s.setRx r) lo)
  | address {a : Byte} {r : List Byte} (hst : s.st = .addr) (hrx : s.rx = a :: r) :
      RowTaken s (addressStep (s.setRx r) a)
  | sample (hst : s.st = .rdSample) (hack : s.rfAck = true) (hv : s.platform.valid s.space s.addr = true) :
      RowTaken s s.sampled
  | send (hst : s.st = .rdSend) (htx : s.txReady = true) : RowTaken s (readSend s)
  | recv {d : Byte} {r : List Byte} (hst : s.st = .wrRecv) (hrx : s.rx = d :: r) :
      RowTaken s (writeRecv (s.setRx r) d)
  | perform (hst : s.st = .wrWrite) (hack : s.rfAck = true) (hv : s.platform.valid s.space s.addr = true) :
      RowTaken s s.performed

theorem fsmStep_hdr {s : State} {h : Byte} {r : List Byte} (hrst : s.rst = false) (hst : s.st = .hdr)
    (hrx : s.rx = h :: r) : fsmStep s = .next (headerStep (s.setRx r) h) := by
  simp only [fsmStep, fsmRow, hrst, hst, hrx, Bool.false_eq_true, if_false]

theorem fsmStep_cntLo {s : State} {lo : Byte} {r : List Byte} (hrst : s.rst = false) (hst : s.st = .cntLo)
    (hrx : s.rx = lo :: r) : fsmStep s = .next (countLowStep (s.setRx r) lo) := by
  simp only [fsmStep, fsmRow, hrst, hst, hrx, Bool.false_eq_true, if_false]

theorem fsmStep_addr {s : State} {a : Byte} {r : List Byte} (hrst : s.rst = false) (hst : s.st = .addr)
    (hrx : s.rx = a :: r) : fsmStep s = .next (addressStep (s.setRx r) a) := by
  simp only [fsmStep, fsmRow, hrst, hst, hrx, Bool.false_eq_true, if_false]

theorem fsmStep_rdSample {s : State} (hrst : s.rst = false) (hst : s.st = .rdSample) (hack : s.rfAck = true) :
    fsmStep s =
      if s.platform.valid s.space s.addr then .next s.sampled
      else .fault (.platformFault s.space s.addr .read) := by
  simp only [fsmStep, fsmRow, hrst, hst, hack, Bool.false_eq_true, if_false, if_true, readSample_eq_sampled]

theorem fsmStep_rdSend {s : State} (hrst : s.rst = false) (hst : s.st = .rdSend) (htx : s.txReady = true) :
    fsmStep s = .next (readSend s) := by
  simp only [fsmStep, fsmRow, hrst, hst, htx, Bool.false_eq_true, if_false, if_true]

theorem fsmStep_wrRecv {s : State} {d : Byte} {r : List Byte} (hrst : s.rst = false) (hst : s.st = .wrRecv)
    (hrx : s.rx = d :: r) : fsmStep s = .next (writeRecv (s.setRx r) d) := by
  simp only [fsmStep, fsmRow, hrst, hst, hrx, Bool.false_eq_true, if_false]

theorem fsmStep_wrWrite {s : State} (hrst : s.rst = false) (hst : s.st = .wrWrite) (hack : s.rfAck = true) :
    fsmStep s =
      if s.platform.valid s.space s.addr then .next s.performed
      else .fault (.platformFault s.space s.addr .write) := by
  simp only [fsmStep, fsmRow, hrst, hst, hack, Bool.false_eq_true, if_false, if_true, writePerform_eq_performed]

/-- The handshake each state waits for (R22, R76). -/
theorem enabled_eq (s : State) :
    s.enabled = (!s.rst && match s.st with
      | .hdr | .cntLo | .addr | .wrRecv => !s.rx.isEmpty
      | .rdSend => s.txReady
      | .rdSample | .wrWrite => s.rfAck) := by
  cases h : s.st <;> simp [State.enabled, State.rxReady, State.rxValid, State.txValid, State.rfReq, beq_eq_decide, h]

/-- Without its handshake the block holds its whole state (R22). -/
theorem fsmStep_of_disabled {s : State} (h : s.enabled = false) : fsmStep s = .next s := by
  unfold fsmStep fsmRow
  cases hrst : s.rst
  case true => rfl
  case false =>
    cases hst : s.st
    case hdr | cntLo | addr | wrRecv =>
      have hrx : s.rx = [] := by simpa [enabled_eq, hrst, hst] using h
      simp [hrx]
    case rdSend =>
      have htx : s.txReady = false := by simpa [enabled_eq, hrst, hst] using h
      simp [htx]
    case rdSample | wrWrite =>
      have hack : s.rfAck = false := by simpa [enabled_eq, hrst, hst] using h
      simp [hack]

/-- An enabled block in a receiving state has a byte to take. -/
theorem exists_received {s : State} (he : s.enabled = true) (hst : s.rxReady = true) : ∃ b r, s.rx = b :: r := by
  apply List.exists_cons_of_ne_nil
  rintro hrx
  cases h : s.st <;> simp [State.rxReady, enabled_eq, h, hrx] at hst he

/-- With its handshake the block takes the row of its state, unless an access faults. -/
theorem rowTaken_of_enabled {s t : State} (he : s.enabled = true) (h : fsmStep s = .next t) :
    s.rst = false ∧ RowTaken s t := by
  have hrst : s.rst = false := by
    rw [enabled_eq] at he
    simpa using (Bool.and_eq_true_iff.mp he).1
  refine ⟨hrst, ?_⟩
  cases hst : s.st
  case hdr =>
    obtain ⟨b, r, hrx⟩ := exists_received he (by simp [State.rxReady, hst])
    cases (fsmStep_hdr hrst hst hrx).symm.trans h
    exact .header hst hrx
  case cntLo =>
    obtain ⟨b, r, hrx⟩ := exists_received he (by simp [State.rxReady, hst])
    cases (fsmStep_cntLo hrst hst hrx).symm.trans h
    exact .countLow hst hrx
  case addr =>
    obtain ⟨b, r, hrx⟩ := exists_received he (by simp [State.rxReady, hst])
    cases (fsmStep_addr hrst hst hrx).symm.trans h
    exact .address hst hrx
  case wrRecv =>
    obtain ⟨b, r, hrx⟩ := exists_received he (by simp [State.rxReady, hst])
    cases (fsmStep_wrRecv hrst hst hrx).symm.trans h
    exact .recv hst hrx
  case rdSend =>
    have htx : s.txReady = true := by simpa [enabled_eq, hrst, hst] using he
    cases (fsmStep_rdSend hrst hst htx).symm.trans h
    exact .send hst htx
  case rdSample =>
    have hack : s.rfAck = true := by simpa [enabled_eq, hrst, hst] using he
    rw [fsmStep_rdSample hrst hst hack] at h
    split at h <;> cases h
    exact .sample hst hack ‹_›
  case wrWrite =>
    have hack : s.rfAck = true := by simpa [enabled_eq, hrst, hst] using he
    rw [fsmStep_wrWrite hrst hst hack] at h
    split at h <;> cases h
    exact .perform hst hack ‹_›

/-- All that a step of the block that answers a state can do: wait, or take a row. -/
theorem fsmStep_next {s t : State} (h : fsmStep s = .next t) :
    (s.enabled = false ∧ t = s) ∨ (s.rst = false ∧ RowTaken s t) := by
  cases he : s.enabled
  case false =>
    rw [fsmStep_of_disabled he] at h
    cases h
    exact .inl ⟨rfl, rfl⟩
  case true => exact .inr (rowTaken_of_enabled he h)

/-- Every row moves something: the byte received leaves the transport, a read access leaves `S_RD_SAMPLE`, the byte
sent joins the others, a write is recorded. -/
theorem RowTaken.ne {s t : State} (h : RowTaken s t) : t ≠ s := by
  intro heq
  cases h with
  | header _ hrx | countLow _ hrx | address _ hrx | recv _ hrx =>
    have := congrArg State.rx heq
    simp [hrx] at this
  | sample hst =>
    have := congrArg State.st heq
    simp [hst] at this
  | send =>
    have := congrArg State.tx heq
    simp at this
  | perform =>
    have := congrArg State.log heq
    simp at this

/-- The block does not touch the schedule. -/
theorem fsmStep_script {s t : State} (h : fsmStep s = .next t) : t.script = s.script := by
  obtain ⟨-, rfl⟩ | ⟨-, h⟩ := fsmStep_next h
  · rfl
  · cases h <;> simp

/-! ## The statements about one step of the block -/

/-- Settles O18: a wait holds everything, and a row never ends in the state it began in. -/
theorem blockHoldsExactlyWhileWaiting : Obligations.BlockHoldsExactlyWhileWaiting := by
  refine fun s => ⟨fun h => ?_, fsmStep_of_disabled⟩
  obtain ⟨he, -⟩ | ⟨-, hrow⟩ := fsmStep_next h
  · exact he
  · exact absurd rfl hrow.ne

/-- Settles O19: a row leaves alone the registers that its state does not write. -/
theorem registersHaveTheirWriters : Obligations.RegistersHaveTheirWriters := by
  intro s t h
  obtain ⟨-, rfl⟩ | ⟨-, hrow⟩ := fsmStep_next h
  · simp
  · cases hrow with
    | header hst | countLow hst | address hst | sample hst | send hst | recv hst | perform hst => simp [hst]

/-- Settles O16: each output port is a function of the state register, by its seven values. -/
theorem outputPortsFollowState : Obligations.OutputPortsFollowState := by
  intro s
  cases h : s.st <;>
    simp [State.rxReady, State.txValid, State.rfReq, State.txData, State.rfWe, State.rfWdata, State.rfSpace,
      State.rfAddr, h]

/-- Settles O45: the ports of the boundary state, with their enables at 0 but `rx_ready`. -/
theorem resetLeavesBoundary : Obligations.ResetLeavesBoundary := by
  exact ⟨rfl, rfl, rfl, rfl, rfl, rfl, rfl, rfl, rfl⟩

end Sys2Proof.Machine
end

section
/-! PROOFS. With nothing scheduled a step of the machine is a run of the block's rows (42_dispatch.md R76): a whole
command too, fault included.  What every row keeps, every step keeps. -/

namespace Sys2Proof.Machine

/-! ## Runs of the block -/

/-- A run of the block whose first step answers a state goes on from there. -/
theorem fsmRun_succ {s t : State} (h : fsmStep s = .next t) (k : Nat) : fsmRun (k + 1) s = fsmRun k t := by
  simp [fsmRun, h]

/-- A run of the block that begins with a fault is that fault. -/
theorem fsmRun_one_fault {s : State} {f : Fault} (h : fsmStep s = .fault f) : fsmRun 1 s = .fault f := by
  simp [fsmRun, h]

/-- What every step of the block keeps, its runs keep. -/
theorem fsmRun_keeps {P : State → Prop} (hstep : ∀ s t, P s → fsmStep s = .next t → P t) :
    ∀ (k : Nat) {s t : State}, P s → fsmRun k s = .next t → P t
  | 0, s, t, hs, h => by cases h; exact hs
  | k + 1, s, t, hs, h => by
    unfold fsmRun at h
    split at h
    · next u hu => exact fsmRun_keeps hstep k (hstep s u hs hu) h
    · cases h
    · cases h

/-! ## A burst is a run of rows -/

/-- `AtBurst x n s`: `n` byte operations are left, with the block in `x` or, after the last, at the boundary. -/
structure AtBurst (x : St) (n : Nat) (s : State) : Prop where
  released : s.rst = false
  left : s.cnt.toNat = n
  state : s.st = if n = 0 then .hdr else x

/-- One byte operation done, `n` are left. -/
theorem atBurst_countDown {x y : St} {n : Nat} {s t : State} (h : AtBurst x (n + 1) s) (hrst : t.rst = s.rst)
    (hcnt : t.cnt = s.cnt - 1) (hst : t.st = if s.cnt - 1 = 0 then .hdr else y) : AtBurst y n t := by
  have hn : (s.cnt - 1).toNat = n := by
    have := h.left
    bv_omega
  refine ⟨hrst.trans h.released, hcnt ▸ hn, ?_⟩
  have hzero : s.cnt - 1 = 0 ↔ n = 0 := by rw [← hn, ← BitVec.toNat_inj]; rfl
  simpa only [hzero] using hst

/-- One more byte operation of a read burst, by the states it goes through. -/
theorem readBurst_succ_sampled (n : Nat) (s : State) :
    readBurst (n + 1) s =
      if s.rfAck then
        if s.platform.valid s.space s.addr then
          if s.txReady then readBurst n (readSend s.sampled) else .next s.sampled
        else .fault (.platformFault s.space s.addr .read)
      else .next s :=
  readBurst_succ n s

/-- One more byte operation of a write burst whose payload byte has arrived, by the states it goes through. -/
theorem writeBurst_succ_performed (n : Nat) {s : State} {d : Byte} {r : List Byte} (h : s.rx = d :: r) :
    writeBurst (n + 1) s =
      if s.rfAck then
        if s.platform.valid s.space s.addr then writeBurst n (writeRecv (s.setRx r) d).performed
        else .fault (.platformFault s.space s.addr .write)
      else .next (writeRecv (s.setRx r) d) :=
  writeBurst_succ_cons n s d r h

/-- A read burst is a run of the rows `S_RD_SAMPLE` and `S_RD_SEND`, up to where it waits or faults. -/
theorem readBurst_eq_fsmRun :
    ∀ (n : Nat) (s : State), AtBurst .rdSample n s → ∃ k, fsmRun k s = readBurst n s
  | 0, s, _ => ⟨0, rfl⟩
  | n + 1, s, h => by
    rw [readBurst_succ_sampled]
    by_cases hack : s.rfAck = true
    · rw [if_pos hack]
      have hsample := fsmStep_rdSample h.released h.state hack
      by_cases hv : s.platform.valid s.space s.addr = true
      · rw [if_pos hv] at hsample ⊢
        by_cases htx : s.txReady = true
        · have hsend : fsmStep s.sampled = .next (readSend s.sampled) :=
            fsmStep_rdSend (by simp [h.released]) rfl (by simp [htx])
          obtain ⟨k, hk⟩ := readBurst_eq_fsmRun n (readSend s.sampled)
            (atBurst_countDown h (by simp) (by simp) (by simp))
          exact ⟨k + 2, by rw [if_pos htx, fsmRun_succ hsample, fsmRun_succ hsend, hk]⟩
        · exact ⟨1, by rw [if_neg htx]; exact fsmRun_succ hsample 0⟩
      · rw [if_neg hv] at hsample ⊢
        exact ⟨1, fsmRun_one_fault hsample⟩
    · exact ⟨0, (if_neg hack).symm⟩

/-- A write burst is a run of the rows `S_WR_RECV` and `S_WR_WRITE`, up to where it waits or faults. -/
theorem writeBurst_eq_fsmRun :
    ∀ (n : Nat) (s : State), AtBurst .wrRecv n s → ∃ k, fsmRun k s = writeBurst n s
  | 0, s, _ => ⟨0, rfl⟩
  | n + 1, s, h => by
    cases hrx : s.rx
    case nil => exact ⟨0, (writeBurst_succ_nil n s hrx).symm⟩
    case cons d r =>
      have hrecv := fsmStep_wrRecv h.released h.state hrx
      rw [writeBurst_succ_performed n hrx]
      by_cases hack : s.rfAck = true
      · rw [if_pos hack]
        have hwrite := fsmStep_wrWrite (s := writeRecv (s.setRx r) d) h.released rfl hack
        by_cases hv : s.platform.valid s.space s.addr = true
        · rw [if_pos hv]
          obtain ⟨k, hk⟩ := writeBurst_eq_fsmRun n (writeRecv (s.setRx r) d).performed
            (atBurst_countDown h (by simp) (by simp) (by rw [performed_eq]; rfl))
          exact ⟨k + 2, by rw [fsmRun_succ hrecv, fsmRun_succ (hwrite.trans (if_pos hv)), hk]⟩
        · rw [if_neg hv]
          exact ⟨2, by rw [fsmRun_succ hrecv]; exact fsmRun_one_fault (hwrite.trans (if_neg hv))⟩
      · exact ⟨1, by rw [if_neg hack]; exact fsmRun_succ hrecv 0⟩

/-! ## A command is a run of rows -/

theorem latchCommand_eq (s : State) (sel : Selector) (n : Count) (a : Addr8) :
    latchCommand s sel n a =
      (((s.setCmd sel).setCnt n).setAddr a).goTo
        (if n = 0 then .hdr else if sel.getLsbD 1 then .wrRecv else .rdSample) := by
  simp [latchCommand, State.isWrite]

/-- The direction of a command is bit 1 of its selector (R15, R42). -/
theorem selector_getLsbD_one (i : Instr) : i.selector.getLsbD 1 = decide (i.direction = .write) := by
  cases i <;> simp [Instr.selector, Instr.direction]

/-- A latched command stands at the beginning of the burst of its direction. -/
theorem atBurst_latchCommand (i : Instr) {s : State} (h : s.rst = false) :
    AtBurst (if i.direction = .read then .rdSample else .wrRecv) i.count.toNat
      (latchCommand s i.selector i.count i.address) := by
  have hzero : i.count.toNat = 0 ↔ i.count = 0 := by rw [← BitVec.toNat_inj]; rfl
  refine ⟨by simpa [latchCommand_eq] using h, by simp [latchCommand_eq], ?_⟩
  simp only [latchCommand_eq, goTo_st, hzero, selector_getLsbD_one]
  cases i.direction <;> rfl

/-- From its latched operands a command is a run of rows (R61, R66). -/
theorem exec_eq_fsmRun_latchCommand (i : Instr) {s : State} (h : s.rst = false) :
    ∃ k, fsmRun k (latchCommand s i.selector i.count i.address) = exec i s := by
  have hburst := atBurst_latchCommand i h
  rw [exec_eq]
  cases hd : i.direction <;> rw [hd] at hburst
  · exact readBurst_eq_fsmRun _ _ hburst
  · exact writeBurst_eq_fsmRun _ _ hburst

/-! ## The rows of a command's own bytes -/

/-- The count-low byte completes the count whose high part the header gave (R46, R55, R56). -/
theorem extendedCount_append_low (h lo : Byte) :
    (extendedCount h 0).extractLsb' 8 5 ++ lo = extendedCount h lo :=
  congrArg (· ++ lo) BitVec.extractLsb'_append_eq_left

theorem selector_cases (sel : Selector) : sel = 0b00#2 ∨ sel = 0b01#2 ∨ sel = 0b10#2 ∨ sel = 0b11#2 := by
  revert sel
  decide

/-- What a small-form command names. -/
theorem smallInstr_fields (sel : Selector) (c : BitVec 5) (a : Addr8) :
    (smallInstr sel c a).selector = sel ∧ (smallInstr sel c a).count = c.setWidth 13 ∧
      (smallInstr sel c a).address = a := by
  rcases selector_cases sel with rfl | rfl | rfl | rfl <;> exact ⟨rfl, rfl, rfl⟩

/-- What an extended-form command names. -/
theorem extendedInstr_fields (sel : Selector) (n : Count) (a : Addr8) :
    (extendedInstr sel n a).selector = sel ∧ (extendedInstr sel n a).count = n ∧
      (extendedInstr sel n a).address = a := by
  rcases selector_cases sel with rfl | rfl | rfl | rfl <;> exact ⟨rfl, rfl, rfl⟩

/-- The two shapes of a command at the front of the bytes received (R43, R44). -/
theorem decode_ok_cases {l rest : List Byte} {i : Instr} (hd : decode l = .ok (i, rest)) :
    (∃ h a, l = h :: a :: rest ∧ headerSmall h = true ∧ i = smallInstr (headerSel h) (headerCount h) a) ∨
      ∃ h lo a, l = h :: lo :: a :: rest ∧ headerSmall h = false ∧
        i = extendedInstr (headerSel h) (extendedCount h lo) a := by
  unfold decode at hd
  split at hd
  · cases hd
  · next h r =>
    split at hd
    · next hm =>
      split at hd <;> cases hd
      exact .inl ⟨_, _, rfl, hm, rfl⟩
    · next hm =>
      split at hd <;> cases hd
      exact .inr ⟨_, _, _, rfl, by simpa using hm, rfl⟩

/-- Header and address rows of a small command (R54, R57). -/
theorem fsmRun_small {s : State} {h a : Byte} {rest : List Byte} (hrst : s.rst = false) (hst : s.st = .hdr)
    (hrx : s.rx = h :: a :: rest) (hm : headerSmall h = true) (k : Nat) :
    fsmRun (k + 2) s = fsmRun k (latchCommand (s.setRx rest) (headerSel h) (smallCount h) a) := by
  have hheader := fsmStep_hdr hrst hst hrx
  simp only [headerStep_eq, hm, if_true] at hheader
  have haddress := fsmStep_addr
    (s := (((s.setRx (a :: rest)).setCmd (headerSel h)).setCnt (smallCount h)).goTo .addr) hrst rfl rfl
  rw [fsmRun_succ hheader, fsmRun_succ haddress]
  rfl

/-- Header, count-low and address rows of an extended command (R55, R56, R57). -/
theorem fsmRun_extended {s : State} {h lo a : Byte} {rest : List Byte} (hrst : s.rst = false) (hst : s.st = .hdr)
    (hrx : s.rx = h :: lo :: a :: rest) (hm : headerSmall h = false) (k : Nat) :
    fsmRun (k + 3) s = fsmRun k (latchCommand (s.setRx rest) (headerSel h) (extendedCount h lo) a) := by
  have hheader := fsmStep_hdr hrst hst hrx
  simp only [headerStep_eq, hm, Bool.false_eq_true, if_false] at hheader
  have hlow := fsmStep_cntLo
    (s := (((s.setRx (lo :: a :: rest)).setCmd (headerSel h)).setCnt (extendedCount h 0)).goTo .cntLo) hrst rfl rfl
  have haddress := fsmStep_addr
    (s := countLowStep (((s.setRx (a :: rest)).setCmd (headerSel h)).setCnt (extendedCount h 0)) lo) hrst rfl rfl
  calc
    _ = _ := fsmRun_succ hheader (k + 2)
    _ = _ := fsmRun_succ hlow (k + 1)
    _ = _ := fsmRun_succ haddress k
    _ = _ := by rw [← extendedCount_append_low h lo]; rfl

/-- The rows of a command's own bytes latch its operands (R53 to R57, R59). -/
theorem fsmRun_of_decode {s : State} {i : Instr} {rest : List Byte} (hrst : s.rst = false) (hst : s.st = .hdr)
    (hd : decode s.rx = .ok (i, rest)) :
    ∃ j, ∀ k, fsmRun (k + j) s = fsmRun k (latchCommand (s.setRx rest) i.selector i.count i.address) := by
  obtain ⟨h, a, hrx, hm, rfl⟩ | ⟨h, lo, a, hrx, hm, rfl⟩ := decode_ok_cases hd
  · obtain ⟨hsel, hcount, haddr⟩ := smallInstr_fields (headerSel h) (headerCount h) a
    rw [hsel, hcount, haddr]
    exact ⟨2, fsmRun_small hrst hst hrx hm⟩
  · obtain ⟨hsel, hcount, haddr⟩ := extendedInstr_fields (headerSel h) (extendedCount h lo) a
    rw [hsel, hcount, haddr]
    exact ⟨3, fsmRun_extended hrst hst hrx hm⟩

/-- A command taken at the boundary is a run of rows from there. -/
theorem exec_eq_fsmRun_of_fetch {s t : State} {i : Instr} (h : fetch s = some (i, t)) :
    ∃ k, fsmRun k s = exec i t := by
  obtain ⟨hrst, hst, rest, hd, rfl⟩ := fetch_eq_some.mp h
  obtain ⟨j, hj⟩ := fsmRun_of_decode hrst hst hd
  obtain ⟨k, hk⟩ := exec_eq_fsmRun_latchCommand i (s := s.setRx rest) hrst
  exact ⟨k + j, (hj k).trans hk⟩

/-- With nothing scheduled the machine runs rows of the block: one, or those of a whole command. -/
theorem step_eq_fsmRun {s : State} (h : s.script = []) : ∃ k, fsmRun k s = step s := by
  cases hf : fetch s
  case none =>
    refine ⟨1, ?_⟩
    rw [step_of_fetch_none h hf]
    unfold fsmRun
    cases fsmStep s <;> rfl
  case some p =>
    obtain ⟨k, hk⟩ := exec_eq_fsmRun_of_fetch hf
    exact ⟨k, by rw [hk]; simp [step, h, hf]⟩

/-- What every step of the block keeps, an unscheduled step of the machine keeps. -/
theorem step_keeps_of_fsmStep {P : State → Prop} (hstep : ∀ s t, P s → fsmStep s = .next t → P t) {s t : State}
    (hs : P s) (hscript : s.script = []) (h : step s = .next t) : P t := by
  obtain ⟨k, hk⟩ := step_eq_fsmRun hscript
  exact fsmRun_keeps hstep k hs (hk.trans h)

end Sys2Proof.Machine
end

section
/-! PROOFS. The invariant (O42, O43): clause by clause over the rows, then over every agent's move. -/

namespace Sys2Proof.Machine

/-! ## The rows keep each clause -/

/-- A write keeps the canonical form, and the other rows touch no storage. -/
theorem RowTaken.storage_wf {s t : State} (h : RowTaken s t) (hi : s.Inv) : Memory.wf t.io ∧ Memory.wf t.mem := by
  cases h
  case perform =>
    rw [performed_eq]
    exact afterWrite_wf hi.ioWf hi.memWf
  all_goals exact ⟨by simpa using hi.ioWf, by simpa using hi.memWf⟩

/-- The multiplexor enters a burst of the command's direction with a count, a byte operation goes on with the burst
while the new count is not 0, and no other row enters one (R57, R66). -/
theorem RowTaken.burst {s t : State} (h : RowTaken s t) (hi : s.Inv) :
    (t.st = .rdSample ∨ t.st = .rdSend → t.isWrite = false ∧ t.cnt ≠ 0) ∧
      (t.st = .wrRecv ∨ t.st = .wrWrite → t.isWrite = true ∧ t.cnt ≠ 0) := by
  cases h with
  | @header h => cases hm : headerSmall h <;> simp [hm]
  | countLow => simp
  | address =>
    by_cases hc : s.cnt = 0#13
    · simp [hc]
    · cases hw : s.cmd[1] <;> simp [State.isWrite, hc, hw]
  | sample hst => simpa [State.isWrite] using hi.reading (.inl hst)
  | send hst =>
    have hr := (hi.reading (.inr hst)).1
    by_cases hc : s.cnt - 1#13 = 0#13
    · simp [hc]
    · simpa [State.isWrite, hc] using hr
  | recv hst => simpa [State.isWrite] using hi.writing (.inl hst)
  | perform hst =>
    have hw := (hi.writing (.inr hst)).1
    by_cases hc : s.cnt - 1#13 = 0#13
    · simp [hc]
    · simpa [State.isWrite, hc] using hw

/-- The header writes the low part of an extended count as 0 (R55), and no other row leads to `S_CNTLO`. -/
theorem RowTaken.highPart {s t : State} (h : RowTaken s t) (ht : t.st = .cntLo) : t.cnt.extractLsb' 0 8 = 0 := by
  cases h with
  | @header h =>
    cases hm : headerSmall h
    · simpa [hm, extendedCount] using BitVec.extractLsb'_append_eq_right
    · simp [hm] at ht
  | @address a r =>
    rw [addressStep_eq, goTo_st] at ht
    split at ht
    · cases ht
    · split at ht <;> cases ht
  | send | perform =>
    simp only [readSend_eq, performed_eq, goTo_st] at ht
    split at ht <;> cases ht
  | countLow | sample | recv => simp at ht

theorem RowTaken.rst {s t : State} (h : RowTaken s t) : t.rst = s.rst := by
  cases h <;> simp

/-- A row keeps the invariant. -/
theorem RowTaken.inv {s t : State} (h : RowTaken s t) (hrst : s.rst = false) (hi : s.Inv) : t.Inv where
  ioWf := (h.storage_wf hi).1
  memWf := (h.storage_wf hi).2
  reading := (h.burst hi).1
  writing := (h.burst hi).2
  highPart := h.highPart
  inReset ht := by simp [h.rst, hrst] at ht

theorem fsmStep_inv (s t : State) (hi : s.Inv) (h : fsmStep s = .next t) : t.Inv := by
  obtain ⟨-, rfl⟩ | ⟨hrst, hrow⟩ := fsmStep_next h
  · exact hi
  · exact hrow.inv hrst hi

/-! ## Every move keeps the invariant -/

/-- The invariant of a state at the boundary says that its storage is in canonical form. -/
theorem inv_of_boundary {s : State} (hst : s.st = .hdr) (hio : Memory.wf s.io) (hmem : Memory.wf s.mem) : s.Inv :=
  ⟨hio, hmem, by simp [hst], by simp [hst], by simp [hst], fun _ => hst⟩

/-- The invariant speaks of no field but these, and releasing `rst` keeps it. -/
theorem State.Inv.of_same {s t : State} (hi : s.Inv) (hst : t.st = s.st) (hcmd : t.cmd = s.cmd) (hcnt : t.cnt = s.cnt)
    (hio : t.io = s.io) (hmem : t.mem = s.mem) (hrst : t.rst = true → s.rst = true) : t.Inv := by
  obtain ⟨ioWf, memWf, reading, writing, highPart, inReset⟩ := hi
  refine ⟨hio ▸ ioWf, hmem ▸ memWf, ?_, ?_, ?_, fun h => hst ▸ inReset (hrst h)⟩
  · simpa only [State.isWrite, hst, hcmd, hcnt] using reading
  · simpa only [State.isWrite, hst, hcmd, hcnt] using writing
  · simpa only [hst, hcnt] using highPart

/-- What a reset makes of the access in flight leaves the storage in canonical form. -/
theorem settleInFlight_storage_wf {s t : State} {p : Bool} (hio : Memory.wf s.io) (hmem : Memory.wf s.mem)
    (h : settleInFlight s p = .ok t) : Memory.wf t.io ∧ Memory.wf t.mem := by
  rw [settleInFlight_eq] at h
  split at h
  · split at h <;> cases h
    exact ⟨by simpa using hio, by simpa using hmem⟩
  · split at h
    · split at h <;> cases h
      exact afterWrite_wf hio hmem
    · split at h <;> cases h <;> exact ⟨hio, hmem⟩

/-- A reset leaves the boundary (R92). -/
theorem assertReset_inv {s t : State} {d : ResetDraw} (hi : s.Inv) (h : assertReset s d = .next t) : t.Inv := by
  unfold assertReset at h
  split at h <;> cases h
  next u hu =>
    obtain ⟨hio, hmem⟩ := settleInFlight_storage_wf hi.ioWf hi.memWf hu
    exact inv_of_boundary rfl hio hmem

theorem applyMove_inv {m : Move} {s t : State} (hi : s.Inv) (h : applyMove m s = .next t) : t.Inv := by
  cases m with
  | coreRow => exact fsmStep_inv s t hi h
  | assertReset d => exact assertReset_inv hi h
  | hostTake =>
    cases h
    cases htx : s.tx
    · rw [hostTake_of_nil htx]
      exact hi
    · rw [hostTake_of_cons htx]
      exact hi.of_same rfl rfl rfl rfl rfl id
  | releaseReset =>
    cases h
    exact hi.of_same rfl rfl rfl rfl rfl (by simp)
  | hostSend | setTxReady | setRfAck =>
    cases h
    exact hi.of_same rfl rfl rfl rfl rfl id

/-- Settles O42: the boundary with empty storage. -/
theorem invariantHoldsAtReset : Obligations.InvariantHoldsAtReset :=
  inv_of_boundary rfl reset_memory_wf.1 reset_memory_wf.2

/-- Settles O43: a scheduled move is one agent's, and an unscheduled step is a run of rows. -/
theorem stepKeepsInvariant : Obligations.StepKeepsInvariant := by
  intro s t hi h
  cases hscript : s.script
  case nil => exact step_keeps_of_fsmStep fsmStep_inv hi hscript h
  case cons m ms =>
    rw [step_scheduled ms hscript] at h
    exact applyMove_inv (s := s.setScript ms) (hi.of_same rfl rfl rfl rfl rfl id) h

end Sys2Proof.Machine
end

section
/-! PROOFS. Samples sent and payload written, one by one, whatever the other agents do (O52, O53): each is a relation
between two states that composes, holds across every row and across every move but a reset. -/

namespace Sys2Proof.Machine

/-! ## The schedule -/

theorem settleInFlight_script {s t : State} {p : Bool} (h : settleInFlight s p = .ok t) : t.script = s.script := by
  rw [settleInFlight_eq] at h
  split_ifs at h <;> cases h <;> simp

/-- No move touches the schedule. -/
theorem applyMove_script {m : Move} {s t : State} (h : applyMove m s = .next t) : t.script = s.script := by
  cases m with
  | coreRow => exact fsmStep_script h
  | assertReset d =>
    simp only [applyMove, assertReset] at h
    split at h <;> cases h
    next u hu => exact (settleInFlight_script hu :)
  | hostTake =>
    cases h
    cases htx : s.tx
    · rw [hostTake_of_nil htx]
    · rw [hostTake_of_cons htx]
      rfl
  | hostSend | setTxReady | setRfAck | releaseReset =>
    cases h
    rfl

/-- A step takes the first move off the schedule. -/
theorem step_script {s t : State} (h : step s = .next t) : t.script = s.script.tail := by
  cases hscript : s.script
  case nil =>
    exact step_keeps_of_fsmStep (P := fun u => u.script = [])
      (fun _ _ hu hstep => (fsmStep_script hstep).trans hu) hscript hscript h
  case cons m ms =>
    rw [step_scheduled ms hscript] at h
    exact applyMove_script h

/-! ## Samples -/

/-- From `s` to `t` the bytes sent grow by the sample that waited in `s` and the samples taken since, but the one that
waits in `t` (R37). -/
def SendsInOrder (s t : State) : Prop :=
  ∃ (new : List Access) (sent : List Byte), t.log = s.log ++ new ∧
    t.delivered ++ t.tx = s.delivered ++ s.tx ++ sent ∧
    s.unsent ++ new.filterMap Access.sampled = sent ++ t.unsent

theorem SendsInOrder.of_same {s t : State} (hlog : t.log = s.log) (htx : t.delivered ++ t.tx = s.delivered ++ s.tx)
    (hunsent : t.unsent = s.unsent) : SendsInOrder s t :=
  ⟨[], [], by simpa using hlog, by simpa using htx, by simpa using hunsent.symm⟩

theorem SendsInOrder.refl (s : State) : SendsInOrder s s := .of_same rfl rfl rfl

theorem SendsInOrder.trans {s t u : State} (h : SendsInOrder s t) (h' : SendsInOrder t u) : SendsInOrder s u := by
  obtain ⟨new, sent, hlog, htx, hsamples⟩ := h
  obtain ⟨new', sent', hlog', htx', hsamples'⟩ := h'
  refine ⟨new ++ new', sent ++ sent', by simp [hlog', hlog], by simp [htx', htx], ?_⟩
  calc s.unsent ++ (new ++ new').filterMap Access.sampled
      = s.unsent ++ new.filterMap Access.sampled ++ new'.filterMap Access.sampled := by simp
    _ = sent ++ (t.unsent ++ new'.filterMap Access.sampled) := by rw [hsamples, List.append_assoc]
    _ = sent ++ sent' ++ u.unsent := by rw [hsamples', List.append_assoc]

/-- No sample waits but in `S_RD_SEND`. -/
theorem unsent_of_ne {s : State} (h : s.st ≠ .rdSend) : s.unsent = [] := by
  simp [State.unsent, h]

theorem unsent_of_rdSend {s : State} (h : s.st = .rdSend) : s.unsent = [s.data] := by
  simp [State.unsent, h]

/-- A row leads to `S_RD_SEND` exactly from `S_RD_SAMPLE` (R76). -/
theorem RowTaken.st_eq_rdSend_iff {s t : State} (h : RowTaken s t) : t.st = .rdSend ↔ s.st = .rdSample := by
  cases h with
  | @header h _ hst => cases hm : headerSmall h <;> simp [hm, hst]
  | countLow hst | sample hst | recv hst => simp [hst]
  | address hst => by_cases hc : s.cnt = 0#13 <;> cases hw : s.cmd[1] <;> simp [State.isWrite, hc, hw, hst]
  | send hst | perform hst => by_cases hc : s.cnt - 1#13 = 0#13 <;> simp [hc, hst]

/-- The rows alternate: a sample is taken where none waits, and the send row sends the one that waits. -/
theorem RowTaken.sendsInOrder {s t : State} (h : RowTaken s t) : SendsInOrder s t := by
  have hunsent : s.st ≠ .rdSample → t.unsent = [] := fun hs => unsent_of_ne (mt h.st_eq_rdSend_iff.mp hs)
  cases h with
  | header hst | countLow hst | address hst | recv hst =>
    exact .of_same (by simp) (by simp) (by rw [hunsent (by simp [hst]), unsent_of_ne (by simp [hst])])
  | sample hst =>
    exact ⟨[.read s.space s.addr (s.sampleValue s.space s.addr)], [], by simp, by simp,
      by simp [hst, State.unsent, Access.sampled]⟩
  | send hst =>
    exact ⟨[], [s.data], by simp, by simp, by rw [hunsent (by simp [hst]), unsent_of_rdSend hst]; rfl⟩
  | perform hst =>
    exact ⟨[.write s.space s.addr s.data], [], by simp, by simp,
      by rw [hunsent (by simp [hst]), unsent_of_ne (by simp [hst])]; rfl⟩

theorem fsmStep_sendsInOrder {s t : State} (h : fsmStep s = .next t) : SendsInOrder s t := by
  obtain ⟨-, rfl⟩ | ⟨-, hrow⟩ := fsmStep_next h
  · exact .refl _
  · exact hrow.sendsInOrder

/-- The other agents take no sample; the host only moves a byte sent on. -/
theorem applyMove_sendsInOrder {m : Move} {s t : State} (hm : m.isReset = false) (h : applyMove m s = .next t) :
    SendsInOrder s t := by
  cases m with
  | coreRow => exact fsmStep_sendsInOrder h
  | assertReset => cases hm
  | hostTake =>
    cases h
    cases htx : s.tx
    · rw [hostTake_of_nil htx]
      exact .refl s
    · rw [hostTake_of_cons htx]
      exact .of_same rfl (by simp [htx]) rfl
  | hostSend | setTxReady | setRfAck | releaseReset =>
    cases h
    exact .of_same rfl rfl rfl

/-- Every step without a reset sends in order. -/
theorem step_sendsInOrder {s t : State} (hreset : ∀ m ∈ s.script, m.isReset = false) (h : step s = .next t) :
    SendsInOrder s t := by
  cases hscript : s.script
  case nil =>
    exact step_keeps_of_fsmStep (fun _ _ hu hstep => hu.trans (fsmStep_sendsInOrder hstep)) (.refl s) hscript h
  case cons m ms =>
    rw [step_scheduled ms hscript] at h
    exact applyMove_sendsInOrder (s := s.setScript ms) (hreset m (by simp [hscript])) h

/-- Settles O52: over the run, step by step. -/
theorem samplesAreSentUnderEveryMove : Obligations.SamplesAreSentUnderEveryMove := by
  intro k
  induction k with
  | zero =>
    rintro s t - h
    cases h
    exact SendsInOrder.refl s
  | succ k ih =>
    intro s t hreset h
    obtain ⟨u, hu, hrun⟩ := run_succ_next k h
    have hrest : ∀ m ∈ u.script, m.isReset = false := fun m hm =>
      hreset m (List.mem_of_mem_tail (step_script hu ▸ hm))
    exact (step_sendsInOrder hreset hu).trans (ih u t hrest hrun)

/-! ## Payload -/

/-- From `s` to `t`, with `arrived` sent by the host meanwhile, the bytes taken come in order from those received, and
the bytes written are the one that waited in `s` and the bytes taken, but the one that waits in `t` (R38). -/
def WritesInOrder (s : State) (arrived : List Byte) (t : State) : Prop :=
  ∃ (new : List Access) (taken : List Byte), t.log = s.log ++ new ∧ s.rx ++ arrived = taken ++ t.rx ∧
    s.unwritten ++ taken = new.filterMap Access.written ++ t.unwritten

theorem WritesInOrder.of_same {s t : State} {arrived : List Byte} (hlog : t.log = s.log)
    (hrx : t.rx = s.rx ++ arrived) (hunwritten : t.unwritten = s.unwritten) : WritesInOrder s arrived t :=
  ⟨[], [], by simpa using hlog, by simpa using hrx.symm, by simpa using hunwritten.symm⟩

theorem WritesInOrder.refl (s : State) : WritesInOrder s [] s := .of_same rfl (by simp) rfl

theorem WritesInOrder.trans {s t u : State} {l l' : List Byte} (h : WritesInOrder s l t) (h' : WritesInOrder t l' u) :
    WritesInOrder s (l ++ l') u := by
  obtain ⟨new, taken, hlog, hrx, hpayload⟩ := h
  obtain ⟨new', taken', hlog', hrx', hpayload'⟩ := h'
  refine ⟨new ++ new', taken ++ taken', by simp [hlog', hlog], ?_, ?_⟩
  · calc s.rx ++ (l ++ l') = taken ++ (t.rx ++ l') := by rw [← List.append_assoc, hrx, List.append_assoc]
      _ = taken ++ taken' ++ u.rx := by rw [hrx', List.append_assoc]
  · calc s.unwritten ++ (taken ++ taken')
        = new.filterMap Access.written ++ (t.unwritten ++ taken') := by
          rw [← List.append_assoc, hpayload, List.append_assoc]
      _ = (new ++ new').filterMap Access.written ++ u.unwritten := by rw [hpayload']; simp

/-- No payload byte waits but in `S_WR_WRITE`. -/
theorem unwritten_of_ne {s : State} (h : s.st ≠ .wrWrite) : s.unwritten = [] := by
  simp [State.unwritten, h]

theorem unwritten_of_wrWrite {s : State} (h : s.st = .wrWrite) : s.unwritten = [s.data] := by
  simp [State.unwritten, h]

theorem performed_st_ne_wrWrite (s : State) : s.performed.st ≠ .wrWrite := by
  rw [performed_eq, goTo_st]
  split <;> simp

/-- The rows of a write burst alternate: a payload byte is taken where none waits, and the write row writes the one
that waits. -/
theorem RowTaken.writesInOrder {s t : State} (h : RowTaken s t) (hs : s.inWriteBurst) : WritesInOrder s [] t := by
  cases h with
  | header hst | countLow hst | address hst | sample hst | send hst => simp [State.inWriteBurst, hst] at hs
  | @recv d r hst hrx =>
    exact ⟨[], [d], by simp, by simp [hrx], by simp [State.unwritten, hst]⟩
  | perform hst =>
    exact ⟨[.write s.space s.addr s.data], [], by simp, by simp,
      by rw [unwritten_of_wrWrite hst, unwritten_of_ne (performed_st_ne_wrWrite s)]; simp [Access.written]⟩

theorem fsmStep_writesInOrder {s t : State} (hs : s.inWriteBurst) (h : fsmStep s = .next t) :
    WritesInOrder s [] t := by
  obtain ⟨-, rfl⟩ | ⟨-, hrow⟩ := fsmStep_next h
  · exact .refl _
  · exact hrow.writesInOrder hs

/-- The other agents take and write nothing; a byte the host sends queues behind the others. -/
theorem applyMove_writesInOrder {m : Move} {s t : State} (hm : m.isReset = false) (hs : s.inWriteBurst)
    (h : applyMove m s = .next t) : WritesInOrder s ([m].filterMap Move.sentByte) t := by
  cases m with
  | coreRow => exact fsmStep_writesInOrder hs h
  | assertReset => cases hm
  | hostTake =>
    cases h
    cases htx : s.tx
    · rw [hostTake_of_nil htx]
      exact .refl s
    · rw [hostTake_of_cons htx]
      exact .of_same rfl (by simp [Move.sentByte]) rfl
  | hostSend | setTxReady | setRfAck | releaseReset =>
    cases h
    exact .of_same rfl (by simp [Move.sentByte]) rfl

/-- Every step of a write burst without a reset writes in order. -/
theorem step_writesInOrder {s t : State} (hreset : ∀ m ∈ s.script, m.isReset = false) (hs : s.inWriteBurst)
    (h : step s = .next t) : WritesInOrder s ((s.script.take 1).filterMap Move.sentByte) t := by
  cases hscript : s.script
  case nil =>
    have hfetch : fetch s = none := by
      obtain hst | hst := hs <;> simp [fetch, hst]
    rw [step_of_fetch_none hscript hfetch] at h
    simpa using fsmStep_writesInOrder hs h
  case cons m ms =>
    rw [step_scheduled ms hscript] at h
    exact applyMove_writesInOrder (s := s.setScript ms) (hreset m (by simp [hscript])) hs h

/-- Settles O53: over the run, step by step; the schedule of the rest is the tail. -/
theorem payloadIsWrittenUnderEveryMove : Obligations.PayloadIsWrittenUnderEveryMove := by
  intro k
  induction k with
  | zero =>
    rintro s t - - h
    cases h
    exact WritesInOrder.refl s
  | succ k ih =>
    intro s t hreset hburst h
    obtain ⟨u, hu, hrun⟩ := run_succ_next k h
    have hrest : ∀ m ∈ u.script, m.isReset = false := fun m hm =>
      hreset m (List.mem_of_mem_tail (step_script hu ▸ hm))
    have hburst' : ∀ (j : Nat) (v : State), j < k → core.run j u = .next v → v.inWriteBurst := fun j v hj hv =>
      hburst (j + 1) v (by omega) (by rw [run_succ, hu]; exact hv)
    have hstep := step_writesInOrder hreset (hburst 0 s (by omega) rfl) hu
    have htake : s.script.take (k + 1) = s.script.take 1 ++ u.script.take k := by
      rw [step_script hu, ← List.drop_one, Nat.add_comm, List.take_add]
    have hall := hstep.trans (ih u t hrest hburst' hrun)
    rwa [← List.filterMap_append, ← htake] at hall

end Sys2Proof.Machine
end

section
/-! PROOFS. What a command leaves unchanged (O32, O33), and where it waits (O34, O35). -/

namespace Sys2Proof.Machine

/-! ## The frame of a burst -/

/-- What `s` and `t` have in common, and by how much they may differ, when byte operations of direction `dir` lead
from one to the other: at most `sends` bytes sent, `takes` bytes taken and `accesses` accesses performed, all at the
register the command names (R19, R30, R61). -/
structure BurstFrame (dir : Direction) (sends takes accesses : Nat) (s t : State) : Prop where
  cmd : t.cmd = s.cmd
  addr : t.addr = s.addr
  rst : t.rst = s.rst
  txReady : t.txReady = s.txReady
  delivered : t.delivered = s.delivered
  rfAck : t.rfAck = s.rfAck
  platform : t.platform = s.platform
  script : t.script = s.script
  storage : ∀ c x, dir = .read ∨ s.platform.cell s.space s.addr ≠ some (c, x) →
    Memory.read (t.cells c) x = Memory.read (s.cells c) x
  fifo : s.platform.kind s.space s.addr ≠ .fifo → t.fifo = s.fifo
  sent : ∃ sent, t.tx = s.tx ++ sent ∧ sent.length ≤ sends
  taken : ∃ taken, s.rx = taken ++ t.rx ∧ taken.length ≤ takes
  log : ∃ new, t.log = s.log ++ new ∧ new.length ≤ accesses ∧ ∀ x ∈ new, x.place = (dir, s.space, s.addr)

namespace BurstFrame

variable {dir : Direction} {n m k n' m' k' : Nat} {s t u : State}

theorem refl (dir : Direction) (s : State) : BurstFrame dir 0 0 0 s s := by
  constructor
  case sent | taken => exact ⟨[], by simp⟩
  case log => exact ⟨[], by simp⟩
  all_goals simp

theorem space (h : BurstFrame dir n m k s t) : t.space = s.space := by
  rw [State.space, h.cmd, State.space]

theorem mono (h : BurstFrame dir n m k s t) (hn : n ≤ n') (hm : m ≤ m') (hk : k ≤ k') :
    BurstFrame dir n' m' k' s t := by
  obtain ⟨sent, hsent, hlen⟩ := h.sent
  obtain ⟨taken, htaken, hlen'⟩ := h.taken
  obtain ⟨new, hlog, hlen'', hplace⟩ := h.log
  exact { h with
    sent := ⟨sent, hsent, hlen.trans hn⟩
    taken := ⟨taken, htaken, hlen'.trans hm⟩
    log := ⟨new, hlog, hlen''.trans hk, hplace⟩ }

theorem trans (h : BurstFrame dir n m k s t) (h' : BurstFrame dir n' m' k' t u) :
    BurstFrame dir (n + n') (m + m') (k + k') s u where
  cmd := h'.cmd.trans h.cmd
  addr := h'.addr.trans h.addr
  rst := h'.rst.trans h.rst
  txReady := h'.txReady.trans h.txReady
  delivered := h'.delivered.trans h.delivered
  rfAck := h'.rfAck.trans h.rfAck
  platform := h'.platform.trans h.platform
  script := h'.script.trans h.script
  storage c x hcx := (h'.storage c x (by rwa [h.platform, h.space, h.addr])).trans (h.storage c x hcx)
  fifo hk := (h'.fifo (by rwa [h.platform, h.space, h.addr])).trans (h.fifo hk)
  sent := by
    obtain ⟨l, hl, hlen⟩ := h.sent
    obtain ⟨l', hl', hlen'⟩ := h'.sent
    exact ⟨l ++ l', by rw [hl', hl, List.append_assoc], by rw [List.length_append]; omega⟩
  taken := by
    obtain ⟨l, hl, hlen⟩ := h.taken
    obtain ⟨l', hl', hlen'⟩ := h'.taken
    exact ⟨l ++ l', by rw [hl, hl', List.append_assoc], by rw [List.length_append]; omega⟩
  log := by
    obtain ⟨l, hl, hlen, hplace⟩ := h.log
    obtain ⟨l', hl', hlen', hplace'⟩ := h'.log
    rw [h.space, h.addr] at hplace'
    refine ⟨l ++ l', by rw [hl', hl, List.append_assoc], by rw [List.length_append]; omega, fun x hx => ?_⟩
    exact (List.mem_append.mp hx).elim (hplace x) (hplace' x)

/-- Nothing taken: the bytes received are the same. -/
theorem rx_eq (h : BurstFrame dir n 0 k s t) : t.rx = s.rx := by
  obtain ⟨l, hl, hlen⟩ := h.taken
  simpa [List.length_eq_zero_iff.mp (Nat.le_zero.mp hlen)] using hl.symm

/-- Nothing sent: the bytes sent are the same. -/
theorem tx_eq (h : BurstFrame dir 0 m k s t) : t.tx = s.tx := by
  obtain ⟨l, hl, hlen⟩ := h.sent
  simpa [List.length_eq_zero_iff.mp (Nat.le_zero.mp hlen)] using hl

end BurstFrame

/-! ## The frame of each burst step -/

/-- A read changes no storage byte, and the queue only at a FIFO register (R31). -/
theorem burstFrame_sampled (s : State) : BurstFrame .read 0 0 1 s s.sampled := by
  constructor
  case storage => rintro (_ | _) x - <;> simp
  case fifo => intro h; simp [h]
  case sent | taken => exact ⟨[], by simp⟩
  case log => exact ⟨[.read s.space s.addr (s.sampleValue s.space s.addr)], by simp [Access.place]⟩
  all_goals simp

theorem burstFrame_readSend (s : State) : BurstFrame .read 1 0 0 s (readSend s) := by
  constructor
  case storage => rintro (_ | _) x - <;> simp
  case sent => exact ⟨[s.data], by simp⟩
  case taken => exact ⟨[], by simp⟩
  case log => exact ⟨[], by simp⟩
  all_goals simp

theorem burstFrame_writeRecv {s : State} {d : Byte} {r : List Byte} (h : s.rx = d :: r) :
    BurstFrame .write 0 1 0 s (writeRecv (s.setRx r) d) := by
  constructor
  case storage => rintro (_ | _) x - <;> simp
  case sent => exact ⟨[], by simp⟩
  case taken => exact ⟨[d], by simp [h]⟩
  case log => exact ⟨[], by simp⟩
  all_goals simp

/-- A write changes at most the storage byte its address names. -/
theorem read_afterWrite_cells {s : State} {sp c : Space} {a : Addr8} {v : Byte} {x : Nat}
    (h : s.platform.cell sp a ≠ some (c, x)) :
    Memory.read ((s.afterWrite sp a v).cells c) x = Memory.read (s.cells c) x := by
  rw [afterWrite_cells]
  split
  · next c' x' hcell =>
    split
    · next hc =>
      subst hc
      exact Memory.read_write_other _ v fun hx => h (by rw [hcell, hx])
    · rfl
  · rfl

/-- A write changes no storage byte but the one the address names, and the queue only at a FIFO register (R32). -/
theorem burstFrame_performed (s : State) : BurstFrame .write 0 0 1 s s.performed := by
  constructor
  case storage =>
    rintro c x (h | h)
    · cases h
    · exact (congrArg (Memory.read · x) (by rw [performed_eq]; cases c <;> rfl)).trans (read_afterWrite_cells h)
  case fifo => intro h; simp [afterWrite_fifo_of_ne h]
  case sent | taken => exact ⟨[], by simp⟩
  case log => exact ⟨[.write s.space s.addr s.data], by simp [Access.place]⟩
  all_goals simp

/-! ## The frame of a command -/

/-- A read burst of `n` bytes sends at most `n` bytes and takes none. -/
theorem readBurst_frame : ∀ (n : Nat) {s t : State}, readBurst n s = .next t → BurstFrame .read n 0 n s t
  | 0, s, t, h => by
    cases h
    exact .refl .read s
  | n + 1, s, t, h => by
    rw [readBurst_succ_sampled] at h
    split at h
    · split at h
      · split at h
        · have hop := (burstFrame_sampled s).trans (burstFrame_readSend s.sampled)
          exact (hop.trans (readBurst_frame n h)).mono (by omega) (by omega) (by omega)
        · cases h
          exact (burstFrame_sampled s).mono (by omega) (by omega) (by omega)
      · cases h
    · cases h
      exact (BurstFrame.refl .read s).mono (by omega) (by omega) (by omega)

/-- A write burst of `n` bytes takes at most `n` bytes and sends none. -/
theorem writeBurst_frame : ∀ (n : Nat) {s t : State}, writeBurst n s = .next t → BurstFrame .write 0 n n s t
  | 0, s, t, h => by
    cases h
    exact .refl .write s
  | n + 1, s, t, h => by
    cases hrx : s.rx
    case nil =>
      rw [writeBurst_succ_nil n s hrx] at h
      cases h
      exact (BurstFrame.refl .write s).mono (by omega) (by omega) (by omega)
    case cons d r =>
      rw [writeBurst_succ_performed n hrx] at h
      split at h
      · split at h
        · have hop := (burstFrame_writeRecv hrx).trans (burstFrame_performed (writeRecv (s.setRx r) d))
          exact (hop.trans (writeBurst_frame n h)).mono (by omega) (by omega) (by omega)
        · cases h
      · cases h
        exact (burstFrame_writeRecv hrx).mono (by omega) (by omega) (by omega)

/-- A command's operands name its space (R30, R42). -/
@[simp] theorem latchCommand_space (i : Instr) (s : State) (n : Count) (a : Addr8) :
    (latchCommand s i.selector n a).space = i.space := by
  cases i <;> simp [latchCommand_eq, State.space, Instr.selector, Instr.space]

section

variable (s : State) (sel : Selector) (n : Count) (a : Addr8)

@[simp] theorem latchCommand_addr : (latchCommand s sel n a).addr = a := rfl
@[simp] theorem latchCommand_cnt : (latchCommand s sel n a).cnt = n := rfl
@[simp] theorem latchCommand_rx : (latchCommand s sel n a).rx = s.rx := rfl
@[simp] theorem latchCommand_tx : (latchCommand s sel n a).tx = s.tx := rfl
@[simp] theorem latchCommand_txReady : (latchCommand s sel n a).txReady = s.txReady := rfl
@[simp] theorem latchCommand_rfAck : (latchCommand s sel n a).rfAck = s.rfAck := rfl
@[simp] theorem latchCommand_platform : (latchCommand s sel n a).platform = s.platform := rfl
@[simp] theorem latchCommand_log : (latchCommand s sel n a).log = s.log := rfl
@[simp] theorem latchCommand_script : (latchCommand s sel n a).script = s.script := rfl

end

/-- Settles O32: the frame of the burst, from the latched operands. -/
theorem readCommandFrame : Obligations.ReadCommandFrame := by
  intro i s t hd h
  rw [exec_eq, if_pos hd] at h
  have hf := readBurst_frame _ h
  have hlog := hf.log
  have hfifo := hf.fifo
  rw [latchCommand_space] at hlog hfifo
  exact ⟨hf.cmd, hf.addr, hf.rst, hf.rx_eq, hf.txReady, hf.delivered, hf.rfAck, hf.platform, hf.script,
    fun c x => (hf.storage c x (.inl rfl)).trans (by cases c <;> rfl), hfifo, hf.sent, hlog⟩

/-- Settles O33: the frame of the burst, from the latched operands. -/
theorem writeCommandFrame : Obligations.WriteCommandFrame := by
  intro i s t hd h
  rw [exec_eq, if_neg (by simp [hd])] at h
  have hf := writeBurst_frame _ h
  have hlog := hf.log
  have hfifo := hf.fifo
  have hstorage := hf.storage
  rw [latchCommand_space] at hlog hfifo hstorage
  exact ⟨hf.cmd, hf.addr, hf.rst, hf.tx_eq, hf.txReady, hf.delivered, hf.rfAck, hf.platform, hf.script,
    fun c x hc => (hstorage c x (.inr hc)).trans (by cases c <;> rfl), hfifo, hf.taken, hlog⟩

/-! ## Waits -/

/-- Where the block is not enabled no command waits whole at a released boundary. -/
theorem fetch_of_disabled {s : State} (he : s.enabled = false) : fetch s = none := by
  cases hf : fetch s
  case none => rfl
  case some p =>
    obtain ⟨hrst, hst, rest, hd, -⟩ := fetch_eq_some.mp hf
    obtain ⟨_, _, hrx, -⟩ | ⟨_, _, _, hrx, -⟩ := decode_ok_cases hd <;>
      simp [enabled_eq, hrst, hst, hrx] at he

/-- Where nothing can move, the machine's step changes nothing (R74). -/
theorem step_of_stopped {s : State} (h : s.stopped = true) : step s = .next s := by
  obtain ⟨hscript, he⟩ : s.script = [] ∧ s.enabled = false := by simpa [State.stopped] using h
  rw [step_of_fetch_none hscript (fetch_of_disabled he), fsmStep_of_disabled he]

/-- With a count the multiplexor enters the burst of the command's direction (R57). -/
theorem latchCommand_st {i : Instr} (s : State) (h : 1 ≤ i.count.toNat) :
    (latchCommand s i.selector i.count i.address).st = if i.direction = .read then .rdSample else .wrRecv := by
  have hcount : i.count ≠ 0 := by
    rintro h0
    simp [h0] at h
  simp only [latchCommand_eq, goTo_st, if_neg hcount, selector_getLsbD_one]
  cases i.direction <;> rfl

/-- A stopped machine stays where it is (R74). -/
theorem run_of_hung {s : State} (h : s.hung = true) (k : Nat) : core.run k s = .next s := by
  have hstop : s.stopped = true := by
    simp only [State.hung, Bool.and_eq_true] at h
    exact h.1
  exact run_of_step_self (step_of_stopped hstop) k

/-- The block in `S_RD_SEND` hangs where the transport takes nothing and nothing is scheduled. -/
theorem hung_of_rdSend {s : State} (hst : s.st = .rdSend) (htx : s.txReady = false) (hscript : s.script = []) :
    s.hung = true := by
  simp [State.hung, State.stopped, enabled_eq, hst, htx, hscript]

/-- A read burst whose sample the transport does not take ends with that sample (R22, R37). -/
theorem readBurst_of_not_txReady {s : State} (hack : s.rfAck = true)
    (hv : s.platform.valid s.space s.addr = true) (htx : s.txReady = false) {n : Nat} (hn : 1 ≤ n) :
    readBurst n s = .next s.sampled := by
  obtain ⟨n, rfl⟩ := Nat.exists_eq_add_of_le' hn
  simp only [readBurst_succ_sampled, hack, hv, htx, if_true, Bool.false_eq_true, if_false]

/-- A read burst whose access is not acknowledged has not begun (R22). -/
theorem readBurst_of_not_rfAck {s : State} (hack : s.rfAck = false) (n : Nat) : readBurst n s = .next s := by
  cases n with
  | zero => rfl
  | succ n => simp only [readBurst_succ_sampled, hack, Bool.false_eq_true, if_false]

/-- A write burst whose access is not acknowledged ends with its first payload byte taken (R22, R38). -/
theorem writeBurst_of_not_rfAck {s : State} {d : Byte} {r : List Byte} (hack : s.rfAck = false) (hrx : s.rx = d :: r)
    {n : Nat} (hn : 1 ≤ n) : writeBurst n s = .next (writeRecv (s.setRx r) d) := by
  obtain ⟨n, rfl⟩ := Nat.exists_eq_add_of_le' hn
  simp only [writeBurst_succ_performed n hrx, hack, Bool.false_eq_true, if_false]

/-- Settles O34: the burst ends with its first sample, in a state that hangs. -/
theorem readWaitsForTransport : Obligations.ReadWaitsForTransport := by
  rintro i s hd hn hack htx hv - hscript
  have hexec : exec i s = .next (latchCommand s i.selector i.count i.address).sampled := by
    rw [exec_eq, if_pos hd]
    refine readBurst_of_not_txReady (by simpa using hack) ?_ (by simpa using htx) hn
    simpa using hv
  have hhung := hung_of_rdSend (s := (latchCommand s i.selector i.count i.address).sampled) rfl
    (by simpa using htx) (by simpa using hscript)
  exact ⟨_, hexec, rfl, by simp, by simp, by simp, hhung, run_of_hung hhung⟩

/-- Settles O35: a read burst ends before its first access, a write burst with its first payload byte taken. -/
theorem accessWaitsForPlatform : Obligations.AccessWaitsForPlatform := by
  rintro i s hn hack -
  refine ⟨fun hd => ?_, fun hd d r hrx => ?_⟩
  · refine ⟨latchCommand s i.selector i.count i.address, ?_, ?_, rfl, rfl, rfl, rfl⟩
    · rw [exec_eq, if_pos hd]
      exact readBurst_of_not_rfAck (by simpa using hack) _
    · rw [latchCommand_st s hn, if_pos hd]
  · refine ⟨writeRecv ((latchCommand s i.selector i.count i.address).setRx r) d, ?_, rfl, rfl, rfl, rfl, rfl⟩
    rw [exec_eq, if_neg (by simp [hd])]
    exact writeBurst_of_not_rfAck (by simpa using hack) (by simpa using hrx) hn

end Sys2Proof.Machine
end

section
/-! PROOFS. The access port and the bytes of a burst, row by row (O17, O23, O24, O25), and one access of the platform's
storage (O49, O50). -/

namespace Sys2Proof.Machine

/-! ## The latch -/

/-- The states of a burst (R61). -/
def State.inBurst (s : State) : Prop := s.st = .rdSample ∨ s.st = .rdSend ∨ s.st = .wrRecv ∨ s.st = .wrWrite

/-- The rows of a burst leave the command register and the latch alone (R19, R30). -/
theorem RowTaken.operands {s t : State} (h : RowTaken s t) (hs : s.inBurst) : t.addr = s.addr ∧ t.cmd = s.cmd := by
  cases h with
  | header hst | countLow hst | address hst => simp [State.inBurst, hst] at hs
  | sample | send | recv | perform => simp

/-- The port carries the latch with nothing above it (R30). -/
theorem portAddress_toNat (s : State) : s.portAddress.toNat = s.addr.toNat := by
  have hwidth : s.addr.toNat < 2 ^ Config.rfAddrWidth :=
    s.addr.isLt.trans_le (Nat.pow_le_pow_right (by omega) (Nat.le_add_right 8 _))
  rw [State.portAddress, BitVec.toNat_setWidth, Nat.mod_eq_of_lt hwidth]

theorem portAddress_getLsbD (s : State) {k : Nat} (hk : 8 ≤ k) : s.portAddress.getLsbD k = false := by
  simp [State.portAddress, BitVec.getLsbD_setWidth, BitVec.getLsbD_of_ge s.addr k hk]

theorem rfAddr_of_rfReq {s : State} (h : s.rfReq = true) : s.rfAddr = some s.portAddress := if_pos h

/-- The row of an access records that one access, at the latch in the space of `cmd[0]` (R30). -/
theorem RowTaken.access {s t : State} (h : RowTaken s t) (hs : s.st = .rdSample ∨ s.st = .wrWrite) :
    ∃ x, t.log = s.log ++ [x] ∧ x.place = (if s.st = .wrWrite then .write else .read, s.space, s.addr) := by
  cases h with
  | header hst | countLow hst | address hst | send hst | recv hst => simp [hst] at hs
  | sample hst => exact ⟨.read s.space s.addr (s.sampleValue s.space s.addr), by simp, by simp [Access.place, hst]⟩
  | perform hst => exact ⟨.write s.space s.addr s.data, by simp, by simp [Access.place, hst]⟩

/-- Settles O17: the rows of a burst keep the operands, and the rows that access the platform use them. -/
theorem accessesUseTheLatch : Obligations.AccessesUseTheLatch := by
  refine ⟨fun s t hs h => ?_, fun s hs => ⟨⟨s.portAddress, ?_, portAddress_toNat s, fun k => portAddress_getLsbD s⟩,
    fun t hrst hack h => ?_⟩⟩
  · obtain ⟨-, rfl⟩ | ⟨-, hrow⟩ := fsmStep_next h
    · exact ⟨rfl, rfl⟩
    · obtain ⟨haddr, hcmd⟩ := hrow.operands hs
      exact ⟨haddr, by rw [hcmd]⟩
  · exact rfAddr_of_rfReq (by obtain hst | hst := hs <;> simp [State.rfReq, hst])
  · have henabled : s.enabled = true := by obtain hst | hst := hs <;> simp [enabled_eq, hrst, hst, hack]
    exact (rowTaken_of_enabled henabled h).2.access hs

/-! ## The bytes of a burst -/

/-- Only the host delivers. -/
theorem fsmStep_delivered {s t : State} (h : fsmStep s = .next t) : t.delivered = s.delivered := by
  obtain ⟨-, rfl⟩ | ⟨-, hrow⟩ := fsmStep_next h
  · rfl
  · cases hrow <;> simp

/-- Settles O23: the block sends in order (`SendsInOrder`), and of the bytes sent none leaves for the host in a run of
the block alone. -/
theorem samplesAreSentOneByOne : Obligations.SamplesAreSentOneByOne := by
  intro k s t hst h
  obtain ⟨⟨new, sent, hlog, hsent, hsamples⟩, hdelivered⟩ :=
    fsmRun_keeps (P := fun u => SendsInOrder s u ∧ u.delivered = s.delivered)
      (fun u v hu hstep => ⟨hu.1.trans (fsmStep_sendsInOrder hstep), (fsmStep_delivered hstep).trans hu.2⟩)
      k ⟨.refl s, rfl⟩ h
  refine ⟨new, sent, hlog, ?_, ?_⟩
  · rw [hdelivered, List.append_assoc] at hsent
    exact List.append_cancel_left hsent
  · rwa [unsent_of_ne (by simp [hst])] at hsamples

/-- How many rows of a write burst are left: two for each byte, the one in `data` already received (R64, R65). -/
def State.writeRowsLeft (s : State) : Nat :=
  match s.st with
  | .wrRecv => 2 * s.cnt.toNat
  | .wrWrite => 2 * s.cnt.toNat - 1
  | .hdr | .cntLo | .addr | .rdSample | .rdSend => 0

theorem inWriteBurst_of_writeRowsLeft {s : State} (h : 0 < s.writeRowsLeft) : s.inWriteBurst := by
  cases hst : s.st <;> simp [State.writeRowsLeft, State.inWriteBurst, hst] at h ⊢

/-- A row of a write burst uses up one. -/
theorem RowTaken.writeRowsLeft {s t : State} (h : RowTaken s t) (hs : s.inWriteBurst) :
    s.writeRowsLeft ≤ t.writeRowsLeft + 1 := by
  cases h with
  | header hst | countLow hst | address hst | sample hst | send hst => simp [State.inWriteBurst, hst] at hs
  | recv hst =>
    simp only [State.writeRowsLeft, hst, writeRecv_eq, goTo_st, goTo_cnt, setData_cnt, setRx_cnt]
    omega
  | perform hst =>
    by_cases hc : s.cnt - 1 = 0
    · have : s.cnt.toNat = 1 := by bv_omega
      simp [State.writeRowsLeft, hst, this]
    · have : s.cnt.toNat ≤ (s.cnt - 1).toNat + 1 := by bv_omega
      simp only [State.writeRowsLeft, hst, performed_eq, goTo_st, goTo_cnt, setCnt_cnt, if_neg hc]
      omega

/-- A run of the block no longer than the write burst it begins in writes in order. -/
theorem fsmRun_writesInOrder :
    ∀ (k : Nat) {s t : State}, k ≤ s.writeRowsLeft → fsmRun k s = .next t → WritesInOrder s [] t
  | 0, s, t, _, h => by cases h; exact .refl s
  | k + 1, s, t, hk, h => by
    have hs := inWriteBurst_of_writeRowsLeft (s := s) (by omega)
    unfold fsmRun at h
    split at h
    · next u hu =>
      have hleft : k ≤ u.writeRowsLeft := by
        obtain ⟨-, rfl⟩ | ⟨-, hrow⟩ := fsmStep_next hu
        · omega
        · have := hrow.writeRowsLeft hs
          omega
      exact (fsmStep_writesInOrder hs hu).trans (fsmRun_writesInOrder k hleft h)
    · cases h
    · cases h

/-- Settles O24: at `S_WR_RECV` two rows are left for each byte, and none waits to be written. -/
theorem payloadIsWrittenByteByByte : Obligations.PayloadIsWrittenByteByByte := by
  intro k s t hst hk h
  obtain ⟨new, taken, hlog, htaken, hpayload⟩ :=
    fsmRun_writesInOrder k (by simpa [State.writeRowsLeft, hst] using hk) h
  rw [unwritten_of_ne (by simp [hst])] at hpayload
  exact ⟨new, taken, hlog, by simpa using htaken, hpayload⟩

/-! ## The channel -/

/-- A receiving row takes the oldest byte, the others none (R36). -/
theorem RowTaken.received {s t : State} (h : RowTaken s t) :
    t.rx = s.rx ∨ s.rxReady = true ∧ ∃ b, s.rx = b :: t.rx := by
  cases h with
  | header hst hrx | countLow hst hrx | address hst hrx | recv hst hrx =>
    exact .inr ⟨by simp [State.rxReady, hst], _, by simpa using hrx⟩
  | sample | send | perform => exact .inl (by simp)

/-- The send row appends the byte offered, the others none (R36). -/
theorem RowTaken.sent {s t : State} (h : RowTaken s t) :
    t.tx = s.tx ∨ s.txValid = true ∧ t.tx = s.tx ++ [s.data] := by
  cases h with
  | send hst => exact .inr ⟨by simp [State.txValid, hst], by simp⟩
  | header | countLow | address | sample | recv | perform => exact .inl (by simp)

/-- Settles O25: the block's side row by row, the host's from its moves. -/
theorem channelKeepsByteOrder : Obligations.ChannelKeepsByteOrder := by
  refine ⟨fun s t h => ?_, fun s b ms h => step_scheduled ms h, fun s b r ms h htx => ?_⟩
  · obtain ⟨-, rfl⟩ | ⟨-, hrow⟩ := fsmStep_next h
    · exact ⟨.inl rfl, .inl rfl, rfl⟩
    · exact ⟨hrow.received, hrow.sent, fsmStep_delivered h⟩
  · rw [step_hostTake h, hostTake_of_cons (s := s.setScript ms) htx]
    rfl

/-! ## One access -/

/-- Settles O49: what a write leaves is `afterWrite` with the access recorded, and both keep these fields. -/
theorem writesNeverReachTheBlock : Obligations.WritesNeverReachTheBlock := by
  intro s t sp a v h
  rw [memWrite_eq] at h
  split at h <;> cases h
  simp

/-- An address that names a storage byte is not refused. -/
theorem valid_of_cell {p : Platform} {sp : Space} {a : Addr8} {c : Space × Nat} (h : p.cell sp a = some c) :
    p.valid sp a = true := by
  rw [Platform.valid, bne_iff_ne]
  intro hkind
  simp [Platform.cell, hkind] at h

/-- The byte an address names reads as the value written to it. -/
theorem read_afterWrite_cell {s : State} {sp c : Space} {a : Addr8} {x : Nat} (v : Byte)
    (h : s.platform.cell sp a = some (c, x)) (hwf : Memory.wf (s.cells c)) :
    Memory.read ((s.afterWrite sp a v).cells c) x = v := by
  rw [afterWrite_cells, h]
  simpa using Memory.read_write_same hwf x v

@[simp] theorem record_cells (s : State) (x : Access) (c : Space) : (s.record x).cells c = s.cells c := by
  cases c <;> rfl

/-- Settles O50: both names reach the one cell, and the cell reads as written. -/
theorem sharedAddressesAreOneByte : Obligations.SharedAddressesAreOneByte := by
  intro s sp sp' a a' v c x hcell hcell' hwf
  have hwrite := (memWrite_eq s sp a v).trans (if_pos (valid_of_cell hcell))
  have hread := memRead_eq ((s.afterWrite sp a v).record (.write sp a v)) sp' a'
  rw [if_pos (valid_of_cell (by simpa using hcell')), sampleValue_cell (by simpa using hcell'), record_cells,
    read_afterWrite_cell v hcell hwf] at hread
  exact ⟨_, _, hwrite, hread⟩

end Sys2Proof.Machine
end

section
/-! PROOFS. Streams of commands (O44, O55): a transaction at a ready boundary is one step back to a ready boundary; what
it performs adds up over a list of transactions (`Serves`), which arrive all at once or one a turn, for ever. -/

namespace Sys2Proof.Machine

/-! ## A burst with its handshakes given -/

/-- A read burst with both readiness pins given, at an address the platform allows, samples and sends each byte
(R62, R63, R66). -/
theorem readBurst_completes : ∀ (n : Nat) {s : State}, AtBurst .rdSample n s → s.rfAck = true → s.txReady = true →
    s.platform.valid s.space s.addr = true →
    ∃ t vs, readBurst n s = .next t ∧ AtBurst .rdSample 0 t ∧ vs.length = n ∧
      t.log = s.log ++ vs.map (Access.read s.space s.addr) ∧ t.tx = s.tx ++ vs
  | 0, s, h, _, _, _ => ⟨s, [], rfl, h, rfl, by simp, by simp⟩
  | n + 1, s, h, hack, htx, hv => by
    have hop := (burstFrame_sampled s).trans (burstFrame_readSend s.sampled)
    obtain ⟨t, vs, hrun, hend, hlen, hlog, hsent⟩ := readBurst_completes n (s := readSend s.sampled)
      (atBurst_countDown h (by simp) (by simp) (by simp)) (hop.rfAck.trans hack) (hop.txReady.trans htx)
      (by rw [hop.platform, hop.space, hop.addr, hv])
    rw [hop.space, hop.addr] at hlog
    refine ⟨t, s.sampleValue s.space s.addr :: vs, ?_, hend, by simp [hlen], by simpa using hlog, by simpa using hsent⟩
    rw [readBurst_succ_sampled, if_pos hack, if_pos hv, if_pos htx, hrun]

/-- A write burst whose payload has arrived, acknowledged, at an address the platform allows, takes and writes each
byte (R64, R65, R66). -/
theorem writeBurst_completes : ∀ (ds : List Byte) {s : State} {rest : List Byte}, AtBurst .wrRecv ds.length s →
    s.rx = ds ++ rest → s.rfAck = true → s.platform.valid s.space s.addr = true →
    ∃ t, writeBurst ds.length s = .next t ∧ AtBurst .wrRecv 0 t ∧ t.rx = rest ∧
      t.log = s.log ++ ds.map (Access.write s.space s.addr)
  | [], s, _, h, hrx, _, _ => ⟨s, rfl, h, by simpa using hrx, by simp⟩
  | d :: ds, s, rest, h, hrx, hack, hv => by
    have hop := (burstFrame_writeRecv hrx).trans (burstFrame_performed (writeRecv (s.setRx (ds ++ rest)) d))
    obtain ⟨t, hrun, hend, hrest, hlog⟩ := writeBurst_completes ds (rest := rest)
      (s := (writeRecv (s.setRx (ds ++ rest)) d).performed)
      (atBurst_countDown h (by simp) (by simp) (by rw [performed_eq]; rfl)) (by simp) (hop.rfAck.trans hack)
      (by rw [hop.platform, hop.space, hop.addr, hv])
    rw [hop.space, hop.addr] at hlog
    refine ⟨t, ?_, hend, hrest, by simpa [State.space] using hlog⟩
    rw [List.length_cons, writeBurst_succ_performed _ hrx, if_pos hack, if_pos hv]
    exact hrun

/-! ## What a list of transactions performs -/

/-- The accesses a transaction asks for: one for each byte, all at one register (R30, R66). -/
def Transaction.places (τ : Transaction) : List (Direction × Space × Addr8) :=
  List.replicate τ.instr.count.toNat (τ.instr.direction, τ.instr.space, τ.instr.address)

/-- From `s` to `t` the transactions `ts` are performed, in order, with every sample sent (R35, R36). -/
def Serves (ts : List Transaction) (s t : State) : Prop :=
  ∃ new, t.log = s.log ++ new ∧ new.map Access.place = ts.flatMap Transaction.places ∧
    new.filterMap Access.written = ts.flatMap Transaction.payload ∧ t.tx = s.tx ++ new.filterMap Access.sampled

theorem Serves.refl (s : State) : Serves [] s s := ⟨[], by simp⟩

theorem Serves.trans {ts ts' : List Transaction} {s t u : State} (h : Serves ts s t) (h' : Serves ts' t u) :
    Serves (ts ++ ts') s u := by
  obtain ⟨new, hlog, hplaces, hwritten, hsent⟩ := h
  obtain ⟨new', hlog', hplaces', hwritten', hsent'⟩ := h'
  exact ⟨new ++ new', by simp [hlog', hlog], by simp [hplaces', hplaces], by simp [hwritten', hwritten],
    by simp [hsent', hsent]⟩

/-- A well-formed read has no payload (R48). -/
theorem payload_of_read {τ : Transaction} (hdir : τ.instr.direction = .read) (hwf : τ.wf = true) :
    τ.payload = [] := by
  simpa [Transaction.wf, Instr.payloadLength, hdir] using hwf

/-- The payload of a well-formed write has a byte for each count (R48). -/
theorem payload_length_of_write {τ : Transaction} (hdir : τ.instr.direction = .write) (hwf : τ.wf = true) :
    τ.payload.length = τ.instr.count.toNat := by
  simpa [Transaction.wf, Instr.payloadLength, hdir] using hwf

/-- A completed read of `vs`. -/
theorem serves_read {τ : Transaction} {s t : State} {vs : List Byte} (hdir : τ.instr.direction = .read)
    (hwf : τ.wf = true) (hlen : vs.length = τ.instr.count.toNat)
    (hlog : t.log = s.log ++ vs.map (Access.read τ.instr.space τ.instr.address)) (hsent : t.tx = s.tx ++ vs) :
    Serves [τ] s t := by
  have hpayload := payload_of_read hdir hwf
  refine ⟨_, hlog, ?_, ?_, ?_⟩
  · simp [Transaction.places, ← hlen, hdir, Access.place, Function.comp_def, List.map_const']
  · simp [hpayload, Access.written, List.filterMap_map, Function.comp_def]
  · simpa [Access.sampled, List.filterMap_map, Function.comp_def] using hsent

/-- A completed write of the payload. -/
theorem serves_write {τ : Transaction} {s t : State} (hdir : τ.instr.direction = .write) (hwf : τ.wf = true)
    (hlog : t.log = s.log ++ τ.payload.map (Access.write τ.instr.space τ.instr.address)) (hsent : t.tx = s.tx) :
    Serves [τ] s t := by
  have hlen := payload_length_of_write hdir hwf
  refine ⟨_, hlog, ?_, ?_, ?_⟩
  · simp [Transaction.places, ← hlen, hdir, Access.place, Function.comp_def, List.map_const']
  · simp [Access.written, List.filterMap_map, Function.comp_def]
  · simpa [Access.sampled, List.filterMap_map, Function.comp_def] using hsent

/-! ## One transaction -/

/-- A burst that has done its last operation leaves the boundary ready. -/
theorem ready_of_burst {x : St} {dir : Direction} {n m k : Nat} {s t : State} (hframe : BurstFrame dir n m k s t)
    (hend : AtBurst x 0 t) (hscript : s.script = []) (htx : s.txReady = true) (hack : s.rfAck = true) : t.Ready :=
  ⟨hend.state, hend.released, hframe.script.trans hscript, hframe.txReady.trans htx, hframe.rfAck.trans hack⟩

/-- A well-formed transaction whose own bytes have been taken runs to a ready boundary (R68 to R71, R75). -/
theorem exec_serves {τ : Transaction} {s : State} {rest : List Byte} (hready : s.Ready) (hwf : τ.wf = true)
    (hv : s.platform.valid τ.instr.space τ.instr.address = true) (hrx : s.rx = τ.payload ++ rest) :
    ∃ t, exec τ.instr s = .next t ∧ t.Ready ∧ t.platform = s.platform ∧ t.rx = rest ∧ Serves [τ] s t := by
  obtain ⟨-, hrst, hscript, htx, hack⟩ := hready
  have hburst := atBurst_latchCommand τ.instr hrst
  rw [exec_eq]
  cases hdir : τ.instr.direction <;> rw [hdir] at hburst
  case read =>
    obtain ⟨t, vs, hrun, hend, hlen, hlog, hsent⟩ := readBurst_completes _ hburst hack htx (by simpa using hv)
    have hframe := readBurst_frame _ hrun
    have hpayload := payload_of_read hdir hwf
    refine ⟨t, hrun, ready_of_burst hframe hend hscript htx hack, hframe.platform, ?_, ?_⟩
    · simpa [hpayload] using hframe.rx_eq.trans hrx
    · exact serves_read hdir hwf hlen (by simpa using hlog) hsent
  case write =>
    rw [← payload_length_of_write hdir hwf] at hburst ⊢
    obtain ⟨t, hrun, hend, hrest, hlog⟩ := writeBurst_completes _ hburst hrx hack (by simpa using hv)
    have hframe := writeBurst_frame _ hrun
    exact ⟨t, hrun, ready_of_burst hframe hend hscript htx hack, hframe.platform, hrest,
      serves_write hdir hwf (by simpa using hlog) hframe.tx_eq⟩

/-- The decoder takes back the two bytes of a small form (R43). -/
theorem decode_encodeSmall (sel : Selector) (c : BitVec 5) (a : Addr8) (rest : List Byte) :
    decode (encodeSmall sel c a ++ rest) = .ok (smallInstr sel c a, rest) := by
  have hfields : ∀ (sel : BitVec 2) (c : BitVec 5), headerSmall (sel ++ 1#1 ++ c) = true ∧
      headerSel (sel ++ 1#1 ++ c) = sel ∧ headerCount (sel ++ 1#1 ++ c) = c := by decide
  obtain ⟨hm, hsel, hcount⟩ := hfields sel c
  simp only [encodeSmall, List.cons_append, List.nil_append, decode, hm, if_true]
  rw [hsel, hcount]

/-- The decoder takes back the three bytes of an extended form (R44). -/
theorem decode_encodeExtended (sel : Selector) (n : Count) (a : Addr8) (rest : List Byte) :
    decode (encodeExtended sel n a ++ rest) = .ok (extendedInstr sel n a, rest) := by
  have hfields : ∀ (sel : BitVec 2) (c : BitVec 5), headerSmall (sel ++ 0#1 ++ c) = false ∧
      headerSel (sel ++ 0#1 ++ c) = sel ∧ headerCount (sel ++ 0#1 ++ c) = c := by decide
  obtain ⟨hm, hsel, hcount⟩ := hfields sel (n.extractLsb' 8 5)
  have hn : n.extractLsb' 8 5 ++ n.extractLsb' 0 8 = n := 
    (BitVec.extractLsb'_append_extractLsb'_eq_extractLsb' rfl).trans BitVec.extractLsb'_eq_self
  simp only [encodeExtended, List.cons_append, List.nil_append, decode, hm, Bool.false_eq_true, if_false]
  rw [hsel, extendedCount, hcount, hn]

/-- The decoder takes back what the encoder made, whatever follows it (R43, R44). -/
theorem decode_encode_append : ∀ (i : Instr) (rest : List Byte), decode (encode i ++ rest) = .ok (i, rest)
  | .readIO8S c a, rest => decode_encodeSmall 0b00#2 c a rest
  | .readMem8S c a, rest => decode_encodeSmall 0b01#2 c a rest
  | .writeIO8S c a, rest => decode_encodeSmall 0b10#2 c a rest
  | .writeMem8S c a, rest => decode_encodeSmall 0b11#2 c a rest
  | .readIO8X n a, rest => decode_encodeExtended 0b00#2 n a rest
  | .readMem8X n a, rest => decode_encodeExtended 0b01#2 n a rest
  | .writeIO8X n a, rest => decode_encodeExtended 0b10#2 n a rest
  | .writeMem8X n a, rest => decode_encodeExtended 0b11#2 n a rest

/-- At a ready boundary a command that has arrived whole is the next step. -/
theorem step_of_decode {s : State} {i : Instr} {rest : List Byte} (hready : s.Ready)
    (hd : decode s.rx = .ok (i, rest)) : step s = exec i (s.setRx rest) := by
  have hfetch : fetch s = some (i, s.setRx rest) :=
    fetch_eq_some.mpr ⟨hready.released, hready.boundary, rest, hd, rfl⟩
  simp [step, hready.unscheduled, hfetch]

theorem State.Ready.setRx {s : State} (h : s.Ready) (l : List Byte) : (s.setRx l).Ready :=
  ⟨h.boundary, h.released, h.unscheduled, h.txReady, h.rfAck⟩

/-- A well-formed transaction received at a ready boundary is one step to the next one (R73, R75). -/
theorem step_serves {τ : Transaction} {s : State} {rest : List Byte} (hready : s.Ready) (hwf : τ.wf = true)
    (hv : s.platform.valid τ.instr.space τ.instr.address = true) (hrx : s.rx = τ.bytes ++ rest) :
    ∃ t, step s = .next t ∧ t.Ready ∧ t.platform = s.platform ∧ t.rx = rest ∧ Serves [τ] s t := by
  rw [Transaction.bytes, List.append_assoc] at hrx
  rw [step_of_decode hready (by rw [hrx, decode_encode_append])]
  exact exec_serves (s := s.setRx (τ.payload ++ rest)) (hready.setRx _) hwf hv rfl

/-! ## A stream that has arrived -/

/-- A list of transactions received is served in one step each. -/
theorem run_serves : ∀ (ts : List Transaction) {s : State}, s.Ready →
    (∀ τ ∈ ts, τ.wf = true ∧ s.platform.valid τ.instr.space τ.instr.address = true) →
    s.rx = ts.flatMap Transaction.bytes →
    ∃ t, core.run ts.length s = .next t ∧ t.Ready ∧ t.rx = [] ∧ Serves ts s t
  | [], s, hready, _, hrx => ⟨s, rfl, hready, hrx, .refl s⟩
  | τ :: ts, s, hready, hts, hrx => by
    obtain ⟨hτ, hts⟩ := List.forall_mem_cons.mp hts
    obtain ⟨u, hstep, hu, hplatform, hrest, hserves⟩ := step_serves hready hτ.1 hτ.2 hrx
    obtain ⟨t, hrun, ht, hempty, hserves'⟩ := run_serves ts hu (by rwa [hplatform]) hrest
    exact ⟨t, by rw [List.length_cons, run_succ, hstep]; exact hrun, ht, hempty, hserves.trans hserves'⟩

/-- A ready boundary with no byte pending is the idle stop (R74). -/
theorem State.Ready.idle {s : State} (h : s.Ready) (hrx : s.rx = []) : s.idle = true := by
  simp [State.idle, State.stopped, enabled_eq, h.boundary, h.unscheduled, hrx]

/-- Settles O44: transaction by transaction. -/
theorem commandStreamCompletes : Obligations.CommandStreamCompletes := by
  intro ts s hready hts hrx
  obtain ⟨t, hrun, ht, hempty, new, hserves⟩ := run_serves ts hready hts hrx
  exact ⟨t, new, hrun, ht.idle hempty, ht, hserves⟩

/-! ## A stream that arrives turn by turn -/

theorem setScript_of_eq {s : State} {ms : List Move} (h : s.script = ms) : s.setScript ms = s := by
  subst h
  rfl

/-- The host's moves queue its bytes behind those received (R36). -/
theorem run_hostSend : ∀ (bs : List Byte) {s : State}, s.script = bs.map Move.hostSend →
    core.run bs.length s = .next ((s.setRx (s.rx ++ bs)).setScript [])
  | [], s, h => by rw [List.append_nil]; exact congrArg _ (setScript_of_eq h).symm
  | b :: bs, s, h => by
    rw [List.length_cons, run_succ, step_scheduled _ h]
    refine (run_hostSend bs (s := (s.setScript (bs.map Move.hostSend)).setRx (s.rx ++ [b])) rfl).trans ?_
    rw [setRx_rx, List.append_assoc]
    rfl

/-- The host's turn at a ready boundary leaves it so, with the bytes received. -/
theorem envRound_hostSend {s : State} (hready : s.Ready) {bs : List Byte} (hbs : bs ≠ []) :
    envRound (bs.map Move.hostSend) s = .next (s.setRx (s.rx ++ bs)) := by
  have hlen : max 1 (bs.map Move.hostSend).length = bs.length := by
    rw [List.length_map]
    exact Nat.max_eq_right (List.length_pos_iff.mpr hbs)
  rw [envRound, hlen, run_hostSend bs (by simp [hready.unscheduled])]
  exact congrArg _ (setScript_of_eq (s := s.setRx (s.rx ++ bs)) hready.unscheduled)

theorem bytes_ne_nil (τ : Transaction) : τ.bytes ≠ [] := by
  intro h
  have hd := decode_encode_append τ.instr τ.payload
  rw [← Transaction.bytes, h] at hd
  cases hd

/-- One turn of host and core serves one transaction. -/
theorem turn_serves {τ : Nat → Transaction} {s t : State} {n : Nat}
    (hrun : runRounds (hostInput fun k => (τ k).bytes) (2 * n) s = .next t) (ht : t.Ready) (hrx : t.rx = [])
    (hwf : (τ n).wf = true) (hv : t.platform.valid (τ n).instr.space (τ n).instr.address = true) :
    ∃ u, runRounds (hostInput fun k => (τ k).bytes) (2 * (n + 1)) s = .next u ∧ u.Ready ∧ u.platform = t.platform ∧
      u.rx = [] ∧ Serves [τ n] t u := by
  have hsend := runRounds_succ _ _ hrun
  rw [hostInput_send, envRound_hostSend ht (bytes_ne_nil _)] at hsend
  have hturn := runRounds_succ _ _ hsend
  rw [hostInput_turn, envRound_nil] at hturn
  obtain ⟨u, hstep, hu⟩ := step_serves (ht.setRx (t.rx ++ (τ n).bytes)) (rest := []) hwf hv (by simp [hrx])
  exact ⟨u, hturn.trans hstep, hu⟩

/-- After `n` turns the first `n` transactions are served. -/
theorem runRounds_serves {τ : Nat → Transaction} {s : State} (hready : s.Ready) (hrx : s.rx = [])
    (hτ : ∀ n, (τ n).wf = true ∧ s.platform.valid (τ n).instr.space (τ n).instr.address = true) (n : Nat) :
    ∃ t, runRounds (hostInput fun k => (τ k).bytes) (2 * n) s = .next t ∧ t.Ready ∧ t.platform = s.platform ∧
      t.rx = [] ∧ Serves ((List.range n).map τ) s t := by
  induction n with
  | zero => exact ⟨s, rfl, hready, rfl, hrx, .refl s⟩
  | succ n ih =>
    obtain ⟨t, hrun, ht, hplatform, hempty, hserves⟩ := ih
    obtain ⟨hwf, hv⟩ := hτ n
    obtain ⟨u, hrun', hu, hplatform', hempty', hserves'⟩ := turn_serves hrun ht hempty hwf (by rwa [hplatform])
    refine ⟨u, hrun', hu, hplatform'.trans hplatform, hempty', ?_⟩
    rw [List.range_succ, List.map_append]
    exact hserves.trans hserves'

/-- An input in which the host has always more to send never lets a run stop. -/
theorem not_stopsAt_hostInput {f : Nat → List Byte} (hf : ∀ n, f n ≠ []) (s : State) (k : Nat) (t : State) :
    ¬ StopsAt (hostInput f) s k t := by
  intro h
  have hsilent := h.silent (2 * k) (by omega)
  rw [hostInput_send, List.map_eq_nil_iff] at hsilent
  exact hf k hsilent

/-- Settles O55: turn by turn, and the host's turns never end. -/
theorem endlessStreamIsServed : Obligations.EndlessStreamIsServed := by
  intro τ s hready hrx hτ
  refine ⟨fun n => ?_, not_stopsAt_hostInput (fun n => bytes_ne_nil (τ n)) s⟩
  obtain ⟨t, hrun, ht, -, hempty, new, hlog, hplaces, hwritten, hsent⟩ := runRounds_serves hready hrx hτ n
  rw [List.flatMap_map] at hplaces hwritten
  exact ⟨t, new, hrun, ht, hempty, hlog, hplaces, hwritten, hsent⟩

end Sys2Proof.Machine
end

section
/-! PROOFS. The wire format (O1, O2, O4 to O7): headers and the commands they stand for, in both directions, and the
two count forms. -/

namespace Sys2Proof.Machine

/-! ## The header byte -/

/-- A header is its three fields, `sel`, `m` and `c` (R41). -/
theorem header_eq_fields (h : Byte) :
    headerSel h ++ BitVec.ofBool (headerSmall h) ++ headerCount h = h := by
  revert h
  decide

/-- The bits under the selector's mask (R41, R42). -/
theorem and_selectorMask (h : Byte) : h &&& 0xC0#8 = headerSel h ++ 0#6 := by
  revert h
  decide

theorem and_selectorMask_eq_iff (h : Byte) (sel : Selector) : h &&& 0xC0#8 = sel ++ 0#6 ↔ headerSel h = sel := by
  rw [and_selectorMask, BitVec.append_left_inj]

theorem headerSel_getLsbD_one (h : Byte) : (headerSel h).getLsbD 1 = h.getLsbD 7 := by
  simp [headerSel]

theorem headerSel_getLsbD_zero (h : Byte) : (headerSel h).getLsbD 0 = h.getLsbD 6 := by
  simp [headerSel]

theorem headerCount_toNat (h : Byte) : (headerCount h).toNat = h.toNat &&& 0x1F := by
  rw [headerCount, BitVec.extractLsb'_toNat, Nat.shiftRight_zero]
  exact (Nat.and_two_pow_sub_one_eq_mod h.toNat 5).symm

theorem smallCount_toNat (h : Byte) : (smallCount h).toNat = h.toNat &&& 0x1F := by
  rw [smallCount, BitVec.toNat_setWidth_of_le (by omega), headerCount_toNat]

theorem extendedCount_toNat (h lo : Byte) :
    (extendedCount h lo).toNat = ((h.toNat &&& 0x1F) <<< 8) ||| lo.toNat := by
  rw [extendedCount, BitVec.toNat_append, headerCount_toNat]

/-! ## Decoding and encoding -/

/-- Settles O1: by the form of the command. -/
theorem decodeInvertsEncode : Obligations.DecodeInvertsEncode := decode_encode_append

theorem encode_smallInstr (sel : Selector) (c : BitVec 5) (a : Addr8) :
    encode (smallInstr sel c a) = encodeSmall sel c a := by
  rcases selector_cases sel with rfl | rfl | rfl | rfl <;> rfl

theorem encode_extendedInstr (sel : Selector) (n : Count) (a : Addr8) :
    encode (extendedInstr sel n a) = encodeExtended sel n a := by
  rcases selector_cases sel with rfl | rfl | rfl | rfl <;> rfl

/-- The encoder puts a small header together again (R43). -/
theorem encodeSmall_header {h : Byte} (hm : headerSmall h = true) (a : Addr8) :
    encodeSmall (headerSel h) (headerCount h) a = [h, a] := by
  have hfields := header_eq_fields h
  rw [hm] at hfields
  exact congrArg (fun b : Byte => [b, a]) hfields

/-- The encoder puts an extended header and its count-low byte together again (R44). -/
theorem encodeExtended_header {h : Byte} (hm : headerSmall h = false) (lo : Byte) (a : Addr8) :
    encodeExtended (headerSel h) (extendedCount h lo) a = [h, lo, a] := by
  have hfields := header_eq_fields h
  rw [hm] at hfields
  have hhigh : (extendedCount h lo).extractLsb' 8 5 = headerCount h := BitVec.extractLsb'_append_eq_left
  have hlow : (extendedCount h lo).extractLsb' 0 8 = lo := BitVec.extractLsb'_append_eq_right
  rw [encodeExtended, hhigh, hlow]
  exact congrArg (fun b : Byte => [b, lo, a]) hfields

/-- Settles O2: the bytes taken are a header and what its form asks for, and the encoder gives them back. -/
theorem encodeInvertsDecode : Obligations.EncodeInvertsDecode := by
  intro bs i rest hd
  obtain ⟨h, a, rfl, hm, rfl⟩ | ⟨h, lo, a, rfl, hm, rfl⟩ := decode_ok_cases hd
  · rw [encode_smallInstr, encodeSmall_header hm]
    rfl
  · rw [encode_extendedInstr, encodeExtended_header hm]
    rfl

/-- What the header, and the byte after it, say of the command they begin (R42, R46). -/
theorem decode_fields {h lo a : Byte} {rest r : List Byte} {i : Instr}
    (hd : decode (h :: lo :: a :: rest) = .ok (i, r)) :
    i.selector = headerSel h ∧ i.count = if headerSmall h then smallCount h else extendedCount h lo := by
  obtain ⟨_, _, hl, hm, rfl⟩ | ⟨_, _, _, hl, hm, rfl⟩ := decode_ok_cases hd <;> cases hl
  · obtain ⟨hsel, hcount, -⟩ := smallInstr_fields (headerSel h) (headerCount h) lo
    exact ⟨hsel, by rw [hcount, if_pos hm, smallCount]⟩
  · obtain ⟨hsel, hcount, -⟩ := extendedInstr_fields (headerSel h) (extendedCount h lo) a
    exact ⟨hsel, by rw [hcount, hm]; rfl⟩

/-- Settles O4: by the form the header asks for. -/
theorem countIsAssembledFromHeader : Obligations.CountIsAssembledFromHeader := by
  intro h lo a rest i r hd
  rw [(decode_fields hd).2, headerSmall]
  split
  · exact smallCount_toNat h
  · exact extendedCount_toNat h lo

/-- The space of a command is bit 0 of its selector (R15, R42). -/
theorem selector_getLsbD_zero (i : Instr) : i.selector.getLsbD 0 = decide (i.space = .memory) := by
  cases i <;> simp [Instr.selector, Instr.space]

/-- The selector table (R42). -/
theorem direction_space_eq (i : Instr) :
    (i.direction, i.space) =
      if i.selector = 0b00#2 then (.read, .io)
      else if i.selector = 0b01#2 then (.read, .memory)
      else if i.selector = 0b10#2 then (.write, .io)
      else (.write, .memory) := by
  cases i <;> rfl

/-- Settles O5: the command has the header's selector. -/
theorem selectorPicksCommand : Obligations.SelectorPicksCommand := by
  intro h lo a rest i r hd
  obtain ⟨hsel, -⟩ := decode_fields hd
  refine ⟨?table, ?direction, ?space⟩
  case table =>
    rw [direction_space_eq, hsel]
    simp only [← and_selectorMask_eq_iff]
    rfl
  case direction => rw [← headerSel_getLsbD_one, ← hsel, selector_getLsbD_one, decide_eq_true_iff]
  case space => rw [← headerSel_getLsbD_zero, ← hsel, selector_getLsbD_zero, decide_eq_true_iff]

/-- Settles O6: each word is the encoding of its command, followed by its payload where it has one. -/
theorem specExamplesDecode : Obligations.SpecExamplesDecode :=
  ⟨decode_encode_append (.readIO8S 2 0x3F) [], decode_encode_append (.readIO8X 2748 0x07) [],
    decode_encode_append (.readMem8S 1 0x60) [], decode_encode_append (.readMem8X 32 0x21) [],
    decode_encode_append (.writeIO8S 5 0x10) [1, 2, 3, 4, 5], decode_encode_append (.writeIO8X 256 0x44) [],
    decode_encode_append (.writeMem8S 1 0x60) [0x5A], decode_encode_append (.writeMem8X 8191 0x00) []⟩

/-! ## The two count forms -/

/-- The two forms of a count latch the same operands (R50). -/
theorem exec_small_eq_extended (m : Mnemonic) (c : BitVec 5) (a : Addr8) (s : State) :
    exec (m.small c a) s = exec (m.extended (c.setWidth 13) a) s := by
  cases m <;> rfl

@[simp] theorem small_count (m : Mnemonic) (c : BitVec 5) (a : Addr8) : (m.small c a).count = c.setWidth 13 := by
  cases m <;> rfl

@[simp] theorem extended_count (m : Mnemonic) (n : Count) (a : Addr8) : (m.extended n a).count = n := by
  cases m <;> rfl

theorem encode_small (m : Mnemonic) (c : BitVec 5) (a : Addr8) :
    encode (m.small c a) = encodeSmall (m.small c a).selector c a := by
  cases m <;> rfl

theorem encode_extended (m : Mnemonic) (n : Count) (a : Addr8) :
    encode (m.extended n a) = encodeExtended (m.extended n a).selector n a := by
  cases m <;> rfl

/-- A small count widened has nothing in its high part (R46). -/
theorem setWidth_parts (c : BitVec 5) :
    (c.setWidth 13).extractLsb' 8 5 = 0#5 ∧ (c.setWidth 13).extractLsb' 0 8 = c.setWidth 8 := by
  revert c
  decide

/-- The extended form of a small count has it in its count-low byte (R50). -/
theorem encode_extended_setWidth (m : Mnemonic) (c : BitVec 5) (a : Addr8) :
    encode (m.extended (c.setWidth 13) a) =
      [(m.extended (c.setWidth 13) a).selector ++ 0#1 ++ 0#5, c.setWidth 8, a] := by
  obtain ⟨hhigh, hlow⟩ := setWidth_parts c
  rw [encode_extended, encodeExtended, hhigh, hlow]

/-- A command with count 0 does nothing but latch its operands (R50, R67). -/
theorem exec_of_count_zero {i : Instr} (h : i.count = 0) (s : State) :
    exec i s = .next (latchCommand s i.selector i.count i.address) := by
  have hzero : i.count.toNat = 0 := by rw [h]; rfl
  rw [exec_eq, hzero]
  split <;> rfl

/-- A small form has a count up to 31 (R46). -/
theorem count_lt_of_isSmall {i : Instr} (h : i.isSmall = true) : i.count.toNat < 32 := by
  cases i with
  | readIO8S c | readMem8S c | writeIO8S c | writeMem8S c =>
    rw [Instr.count, BitVec.toNat_setWidth_of_le (by omega)]
    exact c.isLt
  | readIO8X | readMem8X | writeIO8X | writeMem8X => cases h

/-- Settles O7: both forms latch the same operands, and the encodings are read off. -/
theorem bothFormsBehaveAlike : Obligations.BothFormsBehaveAlike := by
  refine ⟨fun m c a s => ?alike, fun m a s => ?zero, fun i hi => ?large, fun a => ?boundary⟩
  case alike =>
    have hcount : (c.setWidth 13).toNat = c.toNat := BitVec.toNat_setWidth_of_le (by omega)
    exact ⟨exec_small_eq_extended m c a s, by rw [small_count, hcount], by rw [extended_count, hcount],
      ⟨_, encode_small m c a, BitVec.extractLsb'_append_eq_right⟩,
      ⟨_, encode_extended_setWidth m c a, BitVec.extractLsb'_append_eq_right⟩⟩
  case zero => exact ⟨_, exec_of_count_zero (extended_count m 0 a) s, rfl, rfl, rfl⟩
  case large =>
    rw [Bool.eq_false_iff]
    intro hsmall
    exact absurd (count_lt_of_isSmall hsmall) (by omega)
  case boundary => rfl

end Sys2Proof.Machine
end

section
/-! PROOFS. Assembler lines (O8): a well-formed line stands for one command, in the form it takes (R52). -/

namespace Sys2Proof

/-- The command a line stands for, in the form it takes (R52). -/
def AsmLine.instr (l : AsmLine) : Instr :=
  match l.form with
  | .small => l.mnemonic.small (BitVec.ofNat 5 l.count) (BitVec.ofNat 8 l.address)
  | .extended => l.mnemonic.extended (BitVec.ofNat 13 l.count) (BitVec.ofNat 8 l.address)

namespace AsmLine

variable (l : AsmLine)

theorem assemble_eq : l.assemble = if l.wf then some ⟨l.instr, l.payload⟩ else none := by
  unfold assemble instr
  cases l.form <;> rfl

/-- The checks of R52. -/
theorem wf_iff :
    l.wf = true ↔ l.address ≤ 255 ∧ l.countOk = true ∧
      l.payload.length = if l.mnemonic.isWrite then l.count else 0 := by
  simp [wf, addressOk, payloadOk, and_assoc]

/-- Where the small form is taken (R52). -/
theorem form_eq_small_iff :
    l.form = .small ↔ l.suffix = some .small ∨ l.suffix = none ∧ l.count ≤ 31 := by
  unfold form
  cases l.suffix <;> simp

/-- The checks leave room for the count in the form taken. -/
theorem count_lt (h : l.countOk = true) : l.count < if l.form = .small then 2 ^ 5 else 2 ^ 13 := by
  unfold countOk at h
  unfold form
  cases hs : l.suffix with
  | none =>
    rw [hs, decide_eq_true_iff] at h
    by_cases h31 : l.count ≤ 31 <;> simp [h31] <;> omega
  | some f => cases f <;> simp [hs] at h ⊢ <;> omega

theorem instr_count (h : l.countOk = true) : l.instr.count.toNat = l.count := by
  have hlt := l.count_lt h
  unfold instr
  cases hf : l.form <;> simp only [hf, if_true, if_false, reduceCtorEq] at hlt
  · rw [Machine.small_count, BitVec.toNat_setWidth_of_le (by omega), BitVec.toNat_ofNat, Nat.mod_eq_of_lt hlt]
  · rw [Machine.extended_count, BitVec.toNat_ofNat, Nat.mod_eq_of_lt hlt]

theorem instr_address : l.instr.address = BitVec.ofNat 8 l.address := by
  unfold instr
  cases l.form <;> cases l.mnemonic <;> rfl

theorem instr_isSmall : l.instr.isSmall = true ↔ l.form = .small := by
  unfold instr
  cases l.form <;> cases l.mnemonic <;> simp [Mnemonic.small, Mnemonic.extended, Instr.isSmall]

theorem instr_direction : l.instr.direction = if l.mnemonic.isWrite then .write else .read := by
  unfold instr
  cases l.form <;> cases l.mnemonic <;> rfl

theorem instr_space :
    l.instr.space = .memory ↔ l.mnemonic = .readMem8 ∨ l.mnemonic = .writeMem8 := by
  unfold instr
  cases l.form <;> cases l.mnemonic <;> simp [Mnemonic.small, Mnemonic.extended, Instr.space]

theorem instr_payloadLength (h : l.countOk = true) :
    l.instr.payloadLength = if l.mnemonic.isWrite then l.count else 0 := by
  rw [Instr.payloadLength, instr_direction, instr_count l h]
  cases l.mnemonic.isWrite <;> rfl

end AsmLine

theorem Mnemonic.isWrite_iff (m : Mnemonic) : m.isWrite = true ↔ m = .writeIO8 ∨ m = .writeMem8 := by
  cases m <;> simp [isWrite]

/-- Settles O8: the line's command, field by field, with the line's payload. -/
theorem assemblerLinesAssemble : Obligations.AssemblerLinesAssemble := by
  refine ⟨fun l hwf => ?_, fun l hwf => by rw [l.assemble_eq, hwf]; rfl⟩
  obtain ⟨haddress, hcount, hpayload⟩ := l.wf_iff.mp hwf
  refine ⟨⟨l.instr, l.payload⟩, by rw [l.assemble_eq, if_pos hwf], ?wf, rfl, Machine.decode_encode_append _ _,
    l.instr_count hcount, ?address, ?direction, l.instr_space, l.instr_isSmall.trans l.form_eq_small_iff⟩
  case wf => rw [Transaction.wf, l.instr_payloadLength hcount, hpayload, beq_self_eq_true]
  case address => rw [l.instr_address, BitVec.toNat_ofNat, Nat.mod_eq_of_lt (by omega)]
  case direction =>
    rw [l.instr_direction, ← Mnemonic.isWrite_iff]
    cases l.mnemonic.isWrite <;> simp

end Sys2Proof
end

section
/-! PROOFS. Where a step can stop (O38), and where the block cannot (O3). -/

namespace Sys2Proof.Machine

/-! ## The block -/

theorem rst_of_enabled {s : State} (he : s.enabled = true) : s.rst = false := by
  rw [enabled_eq] at he
  simpa using (Bool.and_eq_true_iff.mp he).1

/-- Where the block waits for a byte it answers a state, with or without one (R22, R49). -/
theorem fsmStep_of_rxReady {s : State} (h : s.rxReady = true) : ∃ t, fsmStep s = .next t := by
  cases he : s.enabled
  case false => exact ⟨s, fsmStep_of_disabled he⟩
  case true =>
    have hrst := rst_of_enabled he
    obtain ⟨b, r, hrx⟩ := exists_received he h
    cases hst : s.st
    case hdr => exact ⟨_, fsmStep_hdr hrst hst hrx⟩
    case cntLo => exact ⟨_, fsmStep_cntLo hrst hst hrx⟩
    case addr => exact ⟨_, fsmStep_addr hrst hst hrx⟩
    case wrRecv => exact ⟨_, fsmStep_wrRecv hrst hst hrx⟩
    case rdSample | rdSend | wrWrite => simp [State.rxReady, hst] at h

/-- Settles O3: the decoder looks at no more than bit 5, and the decode states receive. -/
theorem everyEncodingIsLegal : Obligations.EveryEncodingIsLegal := by
  refine ⟨fun h a rest hm => ?small, fun h lo a rest hm => ?extended, fun s hst => fsmStep_of_rxReady ?receives⟩
  case small => exact ⟨smallInstr (headerSel h) (headerCount h) a, if_pos hm⟩
  case extended =>
    exact ⟨extendedInstr (headerSel h) (extendedCount h lo) a, if_neg (Bool.eq_false_iff.mp hm)⟩
  case receives => rcases hst with hst | hst | hst <;> simp [State.rxReady, hst]

/-- An answer that is a state, or a fault at an address that `p` refuses (R34, R82). -/
inductive StopsWhereRefused (p : Platform) : Result → Prop
  | next (t : State) : StopsWhereRefused p (.next t)
  | fault {sp : Space} {a : Addr8} (dir : Direction) (h : p.valid sp a = false) :
      StopsWhereRefused p (.fault (.platformFault sp a dir))

/-- An access that the register map is asked for first (R82). -/
theorem stopsWhereRefused_access (p : Platform) (sp : Space) (a : Addr8) (dir : Direction) (t : State) :
    StopsWhereRefused p (if p.valid sp a then .next t else .fault (.platformFault sp a dir)) := by
  split
  · exact .next t
  · next hv => exact .fault dir (by simpa using hv)

theorem fsmStep_stopsWhereRefused (s : State) : StopsWhereRefused s.platform (fsmStep s) := by
  cases he : s.enabled
  case false =>
    rw [fsmStep_of_disabled he]
    exact .next s
  case true =>
    have hrst := rst_of_enabled he
    cases hst : s.st
    case hdr | cntLo | addr | wrRecv =>
      obtain ⟨t, h⟩ := fsmStep_of_rxReady (s := s) (by simp [State.rxReady, hst])
      rw [h]
      exact .next t
    case rdSend =>
      rw [fsmStep_rdSend hrst hst (by simpa [enabled_eq, hrst, hst] using he)]
      exact .next _
    case rdSample =>
      rw [fsmStep_rdSample hrst hst (by simpa [enabled_eq, hrst, hst] using he)]
      exact stopsWhereRefused_access _ _ _ _ _
    case wrWrite =>
      rw [fsmStep_wrWrite hrst hst (by simpa [enabled_eq, hrst, hst] using he)]
      exact stopsWhereRefused_access _ _ _ _ _

/-- The register map stays as it is (R9). -/
theorem fsmStep_platform {s t : State} (h : fsmStep s = .next t) : t.platform = s.platform := by
  obtain ⟨-, rfl⟩ | ⟨-, hrow⟩ := fsmStep_next h
  · rfl
  · cases hrow <;> simp

theorem fsmRun_stopsWhereRefused : ∀ (k : Nat) (s : State), StopsWhereRefused s.platform (fsmRun k s)
  | 0, s => .next s
  | k + 1, s => by
    have hstep := fsmStep_stopsWhereRefused s
    unfold fsmRun
    split
    · next t ht => exact fsmStep_platform ht ▸ fsmRun_stopsWhereRefused k t
    · next f hf => rwa [hf] at hstep
    · next r hr => rwa [hr] at hstep

/-! ## The machine -/

/-- The access in flight at a reset faults at a refused address only (R93). -/
theorem assertReset_stopsWhereRefused (s : State) (d : ResetDraw) :
    StopsWhereRefused s.platform (assertReset s d) := by
  unfold assertReset
  split
  · next f hf =>
    rw [settleInFlight_eq] at hf
    split_ifs at hf with _ hv _ hv <;> cases hf <;> exact .fault _ (by simpa using hv)
  · exact .next _

theorem applyMove_stopsWhereRefused (m : Move) (s : State) : StopsWhereRefused s.platform (applyMove m s) := by
  cases m with
  | coreRow => exact fsmStep_stopsWhereRefused s
  | assertReset d => exact assertReset_stopsWhereRefused s d
  | hostSend | hostTake | setTxReady | setRfAck | releaseReset => exact .next _

/-- A step is a move, or with nothing scheduled a run of rows (R76). -/
theorem step_stopsWhereRefused (s : State) : StopsWhereRefused s.platform (step s) := by
  cases hscript : s.script
  case nil =>
    obtain ⟨k, hk⟩ := step_eq_fsmRun hscript
    exact hk ▸ fsmRun_stopsWhereRefused k s
  case cons m ms =>
    rw [step_scheduled ms hscript]
    exact applyMove_stopsWhereRefused m (s.setScript ms)

/-- Settles O38: a step that stops is a fault where the platform refuses the address. -/
theorem stepStopsOnlyAtRefusedAddress : Obligations.StepStopsOnlyAtRefusedAddress := by
  intro s
  have h := step_stopsWhereRefused s
  constructor
  · intro r hr
    rw [hr] at h
    cases h
  · intro f hf
    rw [hf] at h
    cases h with
    | fault dir hv => exact ⟨_, _, dir, rfl, hv⟩

end Sys2Proof.Machine
end

section
/-! PROOFS. The decoder's rows (O9, O10, O11) and the step that takes a whole command (O39): the count's arithmetic, and
what a receiving state does while no byte has arrived. -/

namespace Sys2Proof.Machine

/-! ## The count under its masks -/

/-- The count of a small header (R46, R54). -/
theorem smallCount_eq_and (h : Byte) : smallCount h = h.setWidth 13 &&& 0x1F#13 := by
  revert h
  decide

/-- The high part of an extended count, its low part 0 (R46, R55). -/
theorem extendedCount_zero_eq_shiftLeft (h : Byte) : extendedCount h 0 = (h.setWidth 13 &&& 0x1F#13) <<< 8 := by
  revert h
  decide

/-- Under its mask a count keeps its high part, and the byte widened joins it (R56). -/
theorem high_append_eq_or (n : Count) (lo : Byte) :
    n.extractLsb' 8 5 ++ lo = (n &&& 0x1F00#13) ||| lo.setWidth 13 := by
  have hn : n.extractLsb' 8 5 ++ n.extractLsb' 0 8 = n := BitVec.extractLsb'_append_extractLsb'
  have hmask : BitVec.allOnes 5 ++ 0#8 = 0x1F00#13 := rfl
  have hlo : 0#5 ++ lo = lo.setWidth 13 := (BitVec.setWidth_eq_append (by decide)).symm
  calc n.extractLsb' 8 5 ++ lo
      = ((n.extractLsb' 8 5 ++ n.extractLsb' 0 8) &&& (BitVec.allOnes 5 ++ 0#8)) ||| (0#5 ++ lo) := by
        rw [BitVec.and_append, BitVec.or_append]
        simp only [BitVec.and_allOnes, BitVec.and_zero, BitVec.or_zero, BitVec.zero_or]
    _ = (n &&& 0x1F00#13) ||| lo.setWidth 13 := by rw [hn, hmask, hlo]

/-! ## The receiving states -/

/-- Where the block waits for a byte and none has arrived, it holds its state (R22). -/
theorem fsmStep_of_rx_nil {s : State} (hst : s.rxReady = true) (hrx : s.rx = []) : fsmStep s = .next s := by
  refine fsmStep_of_disabled (Bool.eq_false_iff.mpr fun he => ?_)
  obtain ⟨b, r, hcons⟩ := exists_received he hst
  rw [hrx] at hcons
  cases hcons

/-- Settles O10: the high part kept, the byte received appended. -/
theorem countLowRow : Obligations.CountLowRow := by
  refine fun s hrst hst => ⟨fsmStep_of_rx_nil (by rw [State.rxReady, hst]), fun lo r hrx => ?_⟩
  rw [fsmStep_cntLo hrst hst hrx, countLowStep_eq, high_append_eq_or]
  rfl

/-- Settles O9: by bit 5 of the header. -/
theorem headerRow : Obligations.HeaderRow := by
  refine fun s hrst hst => ⟨fsmStep_of_rx_nil (by rw [State.rxReady, hst]), fun h r hrx => ?_⟩
  rw [fsmStep_hdr hrst hst hrx, headerStep_eq, smallCount_eq_and, extendedCount_zero_eq_shiftLeft, headerSmall]
  cases h.getLsbD 5 <;> rfl

/-- The multiplexor tests the count as a number and the direction bit for 0 (R57). -/
theorem multiplexor_eq (s : State) :
    (if s.cnt = 0 then St.hdr else if s.isWrite then .wrRecv else .rdSample) =
      if s.cnt.toNat = 0 then .hdr else if s.cmd.getLsbD 1 = false then .rdSample else .wrRecv := by
  have hcnt : s.cnt = 0 ↔ s.cnt.toNat = 0 := BitVec.toNat_inj.symm
  cases hdir : s.cmd.getLsbD 1 <;>
    simp only [hcnt, hdir, State.isWrite, Bool.false_eq_true, reduceCtorEq, if_true, if_false]

/-- Settles O11: the address latched, and the multiplexor in the statement's spelling. -/
theorem addressRow : Obligations.AddressRow := by
  refine fun s hrst hst => ⟨fsmStep_of_rx_nil (by rw [State.rxReady, hst]), fun a r hrx => ?_⟩
  rw [fsmStep_addr hrst hst hrx, addressStep_eq, ← multiplexor_eq]
  rfl

/-! ## The step that takes a command -/

/-- Settles O39: at a released boundary the command that has arrived is fetched, its bytes with it. -/
theorem stepRunsTheDecodedCommand : Obligations.StepRunsTheDecodedCommand := by
  intro s i rest hscript hrst hst hd
  have hfetch : fetch s = some (i, { s with rx := rest }) := fetch_eq_some.mpr ⟨hrst, hst, rest, hd, rfl⟩
  simp [step, hscript, hfetch]

end Sys2Proof.Machine
end

section
/-! PROOFS. The rows of the accessor (O12 to O15), how a burst ends (O20), a command with count 0 (O30), and a command
as a run of rows (O41). -/

namespace Sys2Proof.Machine

/-- Settles O41: the command is fetched at the boundary, and what is fetched is a run of rows. -/
theorem commandRefinesStateMachine : Obligations.CommandRefinesStateMachine := by
  intro i s rest hst hrst hrx
  exact exec_eq_fsmRun_of_fetch
    (fetch_eq_some.mpr ⟨hrst, hst, rest, by rw [hrx, decode_encode_append], rfl⟩)

/-! ## The rows of the accessor -/

/-- The count is 0 as a number exactly where the block's condition holds (R20). -/
theorem count_eq_zero_iff (n : Count) : n = 0 ↔ n.toNat = 0 := BitVec.toNat_inj.symm

theorem one_le_toNat_of_ne_zero {n : Count} (h : n ≠ 0) : 1 ≤ n.toNat :=
  Nat.one_le_iff_ne_zero.mpr (mt (count_eq_zero_iff n).mpr h)

/-- What READ-SAMPLE writes: the sample, its record, and the state (R62). -/
theorem sampled_eq_update (s : State) :
    s.sampled =
      { s.afterRead s.space s.addr with
        data := s.sampleValue s.space s.addr
        log := s.log ++ [.read s.space s.addr (s.sampleValue s.space s.addr)]
        st := .rdSend } := by
  rw [← afterRead_log (s := s) (sp := s.space) (a := s.addr)]
  rfl

/-- What WRITE-PERFORM writes: the record, the count, and the state by the new count (R65). -/
theorem performed_eq_update (s : State) :
    s.performed =
      { s.afterWrite s.space s.addr s.data with
        log := s.log ++ [.write s.space s.addr s.data]
        cnt := s.cnt - 1
        st := if (s.cnt - 1).toNat = 0 then .hdr else .wrRecv } := by
  rw [performed_eq, ← afterWrite_log (s := s) (sp := s.space) (a := s.addr) (v := s.data)]
  simp only [count_eq_zero_iff]
  rfl

/-- Settles O12: the access by the register map's answer, the reachability by the invariant. -/
theorem readSampleRow : Obligations.ReadSampleRow := by
  refine ⟨?row, fun s t hi h hst => ?reach⟩
  case row =>
    rintro s _ hrst hst hack rfl
    have hstep := fsmStep_rdSample hrst hst hack
    refine ⟨fun hv => hstep.trans (if_neg (Bool.eq_false_iff.mp hv)), fun hv => ?_⟩
    rw [hstep, sampled_eq_update]
    exact if_pos hv
  case reach =>
    obtain ⟨hread, hcnt⟩ := (fsmStep_inv s t hi h).reading (.inl hst)
    exact ⟨one_le_toNat_of_ne_zero hcnt, hread⟩

/-- Settles O13: the send row tests the new count, and neither row of a read burst receives. -/
theorem readSendRow : Obligations.ReadSendRow := by
  refine ⟨fun s hrst hst => ⟨fun htx => ?wait, fun htx => ?send⟩, fun s t hs h => ?takesNothing⟩
  case wait => exact fsmStep_of_disabled (by simp [enabled_eq, hst, htx])
  case send =>
    rw [fsmStep_rdSend hrst hst htx, readSend_eq]
    simp only [count_eq_zero_iff]
    rfl
  case takesNothing =>
    have hready : s.rxReady = false := by rcases hs with hst | hst <;> rw [State.rxReady, hst]
    refine ⟨hready, ?_⟩
    obtain ⟨-, rfl⟩ | ⟨-, hrow⟩ := fsmStep_next h
    · rfl
    · exact hrow.received.resolve_right fun hr => by simp [hready] at hr

/-- Settles O14: the row is the step's equation, the reachability the invariant's. -/
theorem writeRecvRow : Obligations.WriteRecvRow := by
  refine ⟨fun s hrst hst => ⟨?wait, fun d r hrx => fsmStep_wrRecv hrst hst hrx⟩, fun s t hi h hst => ?reach⟩
  case wait => exact fsmStep_of_rx_nil (by rw [State.rxReady, hst])
  case reach =>
    obtain ⟨hwrite, hcnt⟩ := (fsmStep_inv s t hi h).writing (.inl hst)
    exact ⟨one_le_toNat_of_ne_zero hcnt, hwrite⟩

/-- Settles O15: the access by the register map's answer. -/
theorem writePerformRow : Obligations.WritePerformRow := by
  rintro s _ hrst hst hack rfl
  have hstep := fsmStep_wrWrite hrst hst hack
  refine ⟨fun hv => hstep.trans (if_neg (Bool.eq_false_iff.mp hv)), fun hv => ?_⟩
  rw [hstep, performed_eq_update]
  exact if_pos hv

/-! ## The end of a burst -/

/-- A count that its decrement takes to 0 was 1 (R66). -/
theorem toNat_eq_one_of_sub_one {n : Count} (h : n - 1 = 0) : n.toNat = 1 := by bv_omega

/-- A row of a burst leads to a state of the burst, but for the byte operation that takes the count from 1 to 0. -/
theorem RowTaken.inBurst_or_last {s t : State} (h : RowTaken s t) (hs : s.inBurst) :
    t.inBurst ∨ t.st = .hdr ∧ s.cnt.toNat = 1 ∧ t.cnt.toNat = 0 ∧ (s.st = .rdSend ∨ s.st = .wrWrite) := by
  cases h with
  | header hst | countLow hst | address hst => simp [State.inBurst, hst] at hs
  | sample | recv => exact .inl (by simp [State.inBurst])
  | send hst | perform hst =>
    by_cases hlast : s.cnt - 1#13 = 0#13
    · exact .inr ⟨by simp [hlast], toNat_eq_one_of_sub_one hlast,
        (count_eq_zero_iff _).mp (by simpa using hlast), by simp [hst]⟩
    · exact .inl (by simp [State.inBurst, hlast])

/-- Settles O20: row by row; a wait stays where it is. -/
theorem burstEndsOnlyByItsLastOperation : Obligations.BurstEndsOnlyByItsLastOperation := by
  intro s t hs h
  obtain ⟨-, rfl⟩ | ⟨-, hrow⟩ := fsmStep_next h
  · exact ⟨rfl, rfl, by tauto⟩
  · obtain ⟨haddr, hcmd⟩ := hrow.operands hs
    exact ⟨hcmd, haddr, by simpa [State.inBurst, or_assoc] using hrow.inBurst_or_last hs⟩

/-- Settles O30: a command with count 0 latches its operands, and the multiplexor goes back to the boundary. -/
theorem zeroCountPerformsNothing : Obligations.ZeroCountPerformsNothing := by
  intro i s h
  have hcount : i.count = 0 := (count_eq_zero_iff _).mpr h
  rw [exec_of_count_zero hcount, hcount]
  rfl

end Sys2Proof.Machine
end

section
/-! PROOFS. A burst with its handshakes given, one byte operation after the other: what any number of operations leaves
of it (O21, O22), what is sampled, and what is written. -/

namespace Sys2Proof.Machine

/-! ## One byte operation -/

/-- One byte operation of a read burst: sample and send (R62, R63). -/
def State.readOne (s : State) : State := readSend s.sampled

/-- One byte operation of a write burst, given the byte received: take and write it (R64, R65). -/
def State.writeOne (s : State) (d : Byte) : State := (writeRecv (s.setRx s.rx.tail) d).performed

section

variable (s : State) (d : Byte)

@[simp] theorem readOne_data : s.readOne.data = s.sampleValue s.space s.addr := by simp [State.readOne]
@[simp] theorem readOne_addr : s.readOne.addr = s.addr := by simp [State.readOne]
@[simp] theorem readOne_space : s.readOne.space = s.space := by simp [State.readOne, State.space]
@[simp] theorem readOne_rst : s.readOne.rst = s.rst := by simp [State.readOne]
@[simp] theorem readOne_rfAck : s.readOne.rfAck = s.rfAck := by simp [State.readOne]
@[simp] theorem readOne_txReady : s.readOne.txReady = s.txReady := by simp [State.readOne]
@[simp] theorem readOne_platform : s.readOne.platform = s.platform := by simp [State.readOne]
@[simp] theorem readOne_tx : s.readOne.tx = s.tx ++ [s.sampleValue s.space s.addr] := by simp [State.readOne]
@[simp] theorem readOne_log : s.readOne.log = s.log ++ [.read s.space s.addr (s.sampleValue s.space s.addr)] := by
  simp [State.readOne]
@[simp] theorem readOne_cells (c : Space) : s.readOne.cells c = s.cells c := by cases c <;> simp [State.readOne]

theorem readOne_fifo (h : s.platform.kind s.space s.addr = .fifo) : s.readOne.fifo = s.fifo.tail := by
  simp [State.readOne, afterRead_fifo h]

@[simp] theorem writeOne_data : (s.writeOne d).data = d := by simp [State.writeOne]
@[simp] theorem writeOne_addr : (s.writeOne d).addr = s.addr := by simp [State.writeOne]
@[simp] theorem writeOne_space : (s.writeOne d).space = s.space := by simp [State.writeOne, State.space]
@[simp] theorem writeOne_rst : (s.writeOne d).rst = s.rst := by simp [State.writeOne]
@[simp] theorem writeOne_rfAck : (s.writeOne d).rfAck = s.rfAck := by simp [State.writeOne]
@[simp] theorem writeOne_platform : (s.writeOne d).platform = s.platform := by simp [State.writeOne]
@[simp] theorem writeOne_rx : (s.writeOne d).rx = s.rx.tail := by simp [State.writeOne]
@[simp] theorem writeOne_log : (s.writeOne d).log = s.log ++ [.write s.space s.addr d] := by
  simp [State.writeOne, State.space]

theorem writeOne_cells (c : Space) : (s.writeOne d).cells c = (s.afterWrite s.space s.addr d).cells c := by
  have hafter : ((writeRecv (s.setRx s.rx.tail) d).afterWrite s.space s.addr d).cells c =
      (s.afterWrite s.space s.addr d).cells c := by
    rw [afterWrite_cells, afterWrite_cells]
    cases c <;> rfl
  rw [← hafter, State.writeOne, performed_eq]
  cases c <;> rfl

theorem writeOne_fifo (h : s.platform.kind s.space s.addr = .fifo) : (s.writeOne d).fifo = s.fifo ++ [d] := by
  rw [State.writeOne, performed_eq]
  exact afterWrite_fifo (s := writeRecv (s.setRx s.rx.tail) d) h

end

/-! ## The count -/

/-- `n` byte operations are left, with the block in `x` or, after the last, at the boundary: `AtBurst` with `rst` left
out, as a command does not look at it (log entry 13). -/
structure BurstLeft (x : St) (n : Nat) (s : State) : Prop where
  left : s.cnt.toNat = n
  state : s.st = if n = 0 then .hdr else x

/-- One byte operation done, `n` are left. -/
theorem BurstLeft.countDown {x y : St} {n : Nat} {s t : State} (h : BurstLeft x (n + 1) s) (hcnt : t.cnt = s.cnt - 1)
    (hst : t.st = if s.cnt - 1 = 0 then .hdr else y) : BurstLeft y n t :=
  have hburst := atBurst_countDown (s := s.setRst false) (t := t.setRst false) ⟨rfl, h.left, h.state⟩ rfl hcnt hst
  ⟨hburst.left, hburst.state⟩

theorem BurstLeft.readOne {x : St} {n : Nat} {s : State} (h : BurstLeft x (n + 1) s) :
    BurstLeft .rdSample n s.readOne :=
  h.countDown (by simp [State.readOne]) (by simp [State.readOne])

theorem BurstLeft.writeOne {x : St} {n : Nat} {s : State} (h : BurstLeft x (n + 1) s) (d : Byte) :
    BurstLeft .wrRecv n (s.writeOne d) :=
  h.countDown (by simp [State.writeOne]) (by rw [State.writeOne, performed_eq]; rfl)

theorem BurstLeft.iterate_readOne : ∀ (k : Nat) {n : Nat} {s : State}, BurstLeft .rdSample (n + k) s →
    BurstLeft .rdSample n (State.readOne^[k] s)
  | 0, _, _, h => h
  | k + 1, _, _, h => BurstLeft.iterate_readOne k h.readOne

theorem BurstLeft.foldl_writeOne : ∀ (ds : List Byte) {n : Nat} {s : State}, BurstLeft .wrRecv (n + ds.length) s →
    BurstLeft .wrRecv n (ds.foldl State.writeOne s)
  | [], _, _, h => h
  | d :: ds, _, _, h => BurstLeft.foldl_writeOne ds (h.writeOne d)

/-! ## The handshakes -/

/-- What a read burst waits for is given, and its address is not refused. -/
structure State.ReadGranted (s : State) : Prop where
  rfAck : s.rfAck = true
  txReady : s.txReady = true
  valid : s.platform.valid s.space s.addr = true

/-- What a write burst waits for, but for its payload, is given, and its address is not refused. -/
structure State.WriteGranted (s : State) : Prop where
  rfAck : s.rfAck = true
  valid : s.platform.valid s.space s.addr = true

theorem State.ReadGranted.readOne {s : State} (h : s.ReadGranted) : s.readOne.ReadGranted :=
  ⟨by simp [h.rfAck], by simp [h.txReady], by simp [h.valid]⟩

theorem State.WriteGranted.writeOne {s : State} (h : s.WriteGranted) (d : Byte) : (s.writeOne d).WriteGranted :=
  ⟨by simp [h.rfAck], by simp [h.valid]⟩

/-- A read burst with its handshakes given is its byte operations (R66). -/
theorem readBurst_eq_iterate : ∀ (n : Nat) {s : State}, s.ReadGranted → readBurst n s = .next (State.readOne^[n] s)
  | 0, _, _ => rfl
  | n + 1, s, h => by
    rw [readBurst_succ_sampled, if_pos h.rfAck, if_pos h.valid, if_pos h.txReady]
    exact readBurst_eq_iterate n h.readOne

/-- A write burst with its handshakes given goes on, after the payload that has arrived, with the rest (R66). -/
theorem writeBurst_eq_foldl : ∀ (ds : List Byte) (n : Nat) {s : State} {rest : List Byte}, s.WriteGranted →
    s.rx = ds ++ rest → writeBurst (n + ds.length) s = writeBurst n (ds.foldl State.writeOne s)
  | [], _, _, _, _, _ => rfl
  | d :: ds, n, s, rest, h, hrx => by
    rw [List.length_cons, ← Nat.add_assoc, writeBurst_succ_performed _ (r := ds ++ rest) hrx, if_pos h.rfAck,
      if_pos h.valid]
    have hone : (writeRecv (s.setRx (ds ++ rest)) d).performed = s.writeOne d := by rw [State.writeOne, hrx]; rfl
    rw [hone]
    exact writeBurst_eq_foldl ds n (rest := rest) (h.writeOne d) (by simp [hrx])

/-- Two rows of the block are one byte operation of a read burst. -/
theorem fsmRun_readOne {n : Nat} {s : State} (hrst : s.rst = false) (h : BurstLeft .rdSample (n + 1) s)
    (hg : s.ReadGranted) (k : Nat) : fsmRun (k + 2) s = fsmRun k s.readOne := by
  have hsample := (fsmStep_rdSample hrst h.state hg.rfAck).trans (if_pos hg.valid)
  have hsend := fsmStep_rdSend (s := s.sampled) (by simp [hrst]) rfl (by simp [hg.txReady])
  exact (fsmRun_succ hsample (k + 1)).trans (fsmRun_succ hsend k)

/-- Two rows of the block are one byte operation of a write burst. -/
theorem fsmRun_writeOne {n : Nat} {s : State} {d : Byte} {r : List Byte} (hrst : s.rst = false)
    (h : BurstLeft .wrRecv (n + 1) s) (hg : s.WriteGranted) (hrx : s.rx = d :: r) (k : Nat) :
    fsmRun (k + 2) s = fsmRun k (s.writeOne d) := by
  have hrecv := fsmStep_wrRecv hrst h.state hrx
  have hwrite := (fsmStep_wrWrite (s := writeRecv (s.setRx r) d) hrst rfl hg.rfAck).trans (if_pos hg.valid)
  rw [State.writeOne, hrx]
  exact (fsmRun_succ hrecv (k + 1)).trans (fsmRun_succ hwrite k)

/-- `k` byte operations of a read burst are `2 k` rows. -/
theorem fsmRun_iterate_readOne : ∀ (k : Nat) {n : Nat} {s : State}, s.rst = false →
    BurstLeft .rdSample (n + k) s → s.ReadGranted → fsmRun (2 * k) s = .next (State.readOne^[k] s)
  | 0, _, _, _, _, _ => rfl
  | k + 1, _, s, hrst, h, hg =>
    (fsmRun_readOne hrst h hg (2 * k)).trans
      (fsmRun_iterate_readOne k ((readOne_rst s).trans hrst) h.readOne hg.readOne)

/-- The byte operations that write `ds` are two rows for each byte. -/
theorem fsmRun_foldl_writeOne : ∀ (ds : List Byte) {n : Nat} {s : State} {rest : List Byte}, s.rst = false →
    BurstLeft .wrRecv (n + ds.length) s → s.WriteGranted → s.rx = ds ++ rest →
    fsmRun (2 * ds.length) s = .next (ds.foldl State.writeOne s)
  | [], _, _, _, _, _, _, _ => rfl
  | d :: ds, _, s, rest, hrst, h, hg, hrx =>
    (fsmRun_writeOne hrst h hg hrx (2 * ds.length)).trans
      (fsmRun_foldl_writeOne ds (rest := rest) ((writeOne_rst s d).trans hrst) (h.writeOne d) (hg.writeOne d)
        (by simp [hrx]))

/-! ## What is sampled -/

/-- The samples of `n` byte operations of a read burst, in order. -/
def State.samples : Nat → State → List Byte
  | 0, _ => []
  | n + 1, s => s.sampleValue s.space s.addr :: s.readOne.samples n

@[simp] theorem samples_succ (n : Nat) (s : State) :
    s.samples (n + 1) = s.sampleValue s.space s.addr :: s.readOne.samples n := rfl

@[simp] theorem length_samples : ∀ (n : Nat) (s : State), (s.samples n).length = n
  | 0, _ => rfl
  | n + 1, s => congrArg (· + 1) (length_samples n s.readOne)

theorem iterate_readOne_log : ∀ (n : Nat) (s : State),
    (State.readOne^[n] s).log = s.log ++ (s.samples n).map (Access.read s.space s.addr)
  | 0, s => (List.append_nil s.log).symm
  | n + 1, s => by
    rw [Function.iterate_succ_apply, iterate_readOne_log n s.readOne]
    simp

theorem iterate_readOne_tx : ∀ (n : Nat) (s : State), (State.readOne^[n] s).tx = s.tx ++ s.samples n
  | 0, s => (List.append_nil s.tx).symm
  | n + 1, s => by
    rw [Function.iterate_succ_apply, iterate_readOne_tx n s.readOne]
    simp

/-- The data buffer holds the last sample. -/
theorem iterate_readOne_data : ∀ (n : Nat) (s : State),
    (State.readOne^[n] s).data = (s.samples n).getLast?.getD s.data
  | 0, _ => rfl
  | n + 1, s => by
    rw [Function.iterate_succ_apply, iterate_readOne_data n s.readOne]
    simp [List.getLast?_cons]

/-- DRAW: each sample is the free value of the accesses before it (R31). -/
theorem samples_volatile : ∀ (n : Nat) {s : State}, s.platform.kind s.space s.addr = .volatile → ∀ k, k < n →
    (s.samples n)[k]? = some (Config.rfRead
      (s.log ++ ((s.samples n).take k).map (Access.read s.space s.addr)) s.space s.addr)
  | n + 1, s, h, 0, _ => by simp [sampleValue_volatile h]
  | n + 1, s, h, k + 1, hk => by
    simpa using samples_volatile n (s := s.readOne) (by simpa using h) k (by omega)

/-- PLAIN: each sample is the byte stored. -/
theorem samples_cell {c : Space} {x : Nat} : ∀ (n : Nat) {s : State}, s.platform.cell s.space s.addr = some (c, x) →
    s.samples n = List.replicate n (Memory.read (s.cells c) x)
  | 0, _, _ => rfl
  | n + 1, s, h => by
    have hrest := samples_cell n (s := s.readOne) (by simpa using h)
    rw [samples_succ, hrest, sampleValue_cell h, readOne_cells, List.replicate_succ]

/-- FIFO(q): the samples are taken off the queue. -/
theorem samples_fifo : ∀ (n : Nat) {s : State}, s.platform.kind s.space s.addr = .fifo → n ≤ s.fifo.length →
    s.samples n = s.fifo.take n ∧ (State.readOne^[n] s).fifo = s.fifo.drop n
  | 0, _, _, _ => ⟨rfl, rfl⟩
  | n + 1, s, h, hn => by
    obtain ⟨b, q, hq⟩ := List.exists_cons_of_length_pos (Nat.lt_of_lt_of_le n.succ_pos hn)
    have htail : s.readOne.fifo = q := by rw [readOne_fifo s h, hq, List.tail_cons]
    obtain ⟨hsamples, hfifo⟩ := samples_fifo n (s := s.readOne) (by simpa using h)
      (by simpa [htail, hq] using hn)
    rw [htail] at hsamples hfifo
    exact ⟨by simp [sampleValue_fifo h, hsamples, hq], by simpa [hq] using hfifo⟩

/-! ## What is written -/

theorem foldl_writeOne_rx : ∀ (ds : List Byte) (s : State),
    (ds.foldl State.writeOne s).rx = s.rx.drop ds.length
  | [], _ => rfl
  | d :: ds, s => by
    rw [List.foldl_cons, foldl_writeOne_rx ds, writeOne_rx, List.drop_tail, List.length_cons]

theorem foldl_writeOne_log : ∀ (ds : List Byte) (s : State),
    (ds.foldl State.writeOne s).log = s.log ++ ds.map (Access.write s.space s.addr)
  | [], s => (List.append_nil s.log).symm
  | d :: ds, s => by
    rw [List.foldl_cons, foldl_writeOne_log ds]
    simp

/-- The data buffer holds the last payload byte. -/
theorem foldl_writeOne_data : ∀ (ds : List Byte) (s : State),
    (ds.foldl State.writeOne s).data = ds.getLast?.getD s.data
  | [], _ => rfl
  | d :: ds, s => by
    rw [List.foldl_cons, foldl_writeOne_data ds]
    simp [List.getLast?_cons]

/-- PLAIN: the register holds the last byte written. -/
theorem foldl_writeOne_cell {c : Space} {x : Nat} : ∀ (ds : List Byte) {s : State},
    s.platform.cell s.space s.addr = some (c, x) → Memory.wf (s.cells c) →
    Memory.read ((ds.foldl State.writeOne s).cells c) x = ds.getLast?.getD (Memory.read (s.cells c) x)
  | [], _, _, _ => rfl
  | d :: ds, s, h, hwf => by
    have hcells : (s.writeOne d).cells c = Memory.write (s.cells c) x d := by
      rw [writeOne_cells, afterWrite_cells, h]
      exact if_pos rfl
    rw [List.foldl_cons, foldl_writeOne_cell ds (by simpa using h) (hcells ▸ Memory.write_wf hwf x d), hcells,
      Memory.read_write_same hwf, List.getLast?_cons]
    rfl

/-- FIFO(q): the queue has taken the payload. -/
theorem foldl_writeOne_fifo : ∀ (ds : List Byte) {s : State}, s.platform.kind s.space s.addr = .fifo →
    (ds.foldl State.writeOne s).fifo = s.fifo ++ ds
  | [], s, _ => (List.append_nil s.fifo).symm
  | d :: ds, s, h => by
    rw [List.foldl_cons, foldl_writeOne_fifo ds (by simpa using h), writeOne_fifo s d h, List.append_assoc]
    rfl

/-! ## The counter -/

/-- Settles O21: `k` byte operations are `2 k` rows, and count down. -/
theorem readBurstCountsDown : Obligations.ReadBurstCountsDown := by
  intro k s hrst hst hack htx hv hk hn
  have hleft : BurstLeft .rdSample (s.cnt.toNat - k + k) s :=
    ⟨(Nat.sub_add_cancel hk).symm, by rw [hst, if_neg (by omega)]⟩
  obtain ⟨hcnt, hend⟩ := hleft.iterate_readOne k
  refine ⟨_, fsmRun_iterate_readOne k hrst hleft ⟨hack, htx, hv⟩, hcnt, ?_, ?_, ?_⟩
  · simp [iterate_readOne_log]
  · simp [iterate_readOne_tx]
  · rw [hend]
    exact if_congr (by omega) rfl rfl

/-- Settles O22: `k` byte operations are `2 k` rows, and count down. -/
theorem writeBurstCountsDown : Obligations.WriteBurstCountsDown := by
  intro k s hrst hst hack hrx hv hk hn
  have hlen : (s.rx.take k).length = k := List.length_take_of_le hrx
  have hleft : BurstLeft .wrRecv (s.cnt.toNat - k + (s.rx.take k).length) s :=
    ⟨by omega, by rw [hst, if_neg (by omega)]⟩
  have hrun := fsmRun_foldl_writeOne (s.rx.take k) hrst hleft ⟨hack, hv⟩ (List.take_append_drop k s.rx).symm
  obtain ⟨hcnt, hend⟩ := hleft.foldl_writeOne
  rw [hlen] at hrun
  refine ⟨_, hrun, hcnt, ?_, ?_, ?_⟩
  · simp [foldl_writeOne_log, hrx]
  · rw [foldl_writeOne_rx, hlen]
  · rw [hend]
    exact if_congr (by omega) rfl rfl

end Sys2Proof.Machine
end

section
/-! PROOFS. The read and write commands (O26 to O29): from the latched operands a command is its byte operations.  A
write read back (O31). -/

namespace Sys2Proof.Machine

/-! ## The latched operands -/

@[simp] theorem latchCommand_cells (s : State) (sel : Selector) (n : Count) (a : Addr8) (c : Space) :
    (latchCommand s sel n a).cells c = s.cells c := by
  cases c <;> rfl

/-- A latched command has its whole count left, in the burst of its direction. -/
theorem burstLeft_latchCommand (i : Instr) (s : State) :
    BurstLeft (if i.direction = .read then .rdSample else .wrRecv) i.count.toNat
      (latchCommand s i.selector i.count i.address) :=
  have h := atBurst_latchCommand i (s := s.setRst false) rfl
  ⟨h.left, h.state⟩

/-! ## Read commands -/

section

variable {i : Instr} {n : Nat} {s : State}

/-- A read command with its handshakes given latches its operands, then samples and sends each byte (R68, R69). -/
theorem exec_read_eq_iterate (hd : i.direction = .read) (hn : i.count.toNat = n) (hack : s.rfAck = true)
    (htx : s.txReady = true) (hv : n = 0 ∨ s.platform.valid i.space i.address = true) :
    exec i s = .next (State.readOne^[n] (latchCommand s i.selector i.count i.address)) := by
  rw [exec_eq, if_pos hd, hn]
  obtain rfl | hv := hv
  · rfl
  · exact readBurst_eq_iterate n ⟨by simpa using hack, by simpa using htx, by simpa using hv⟩

/-- A read command with its handshakes given completes with what R68 and R69 ask of it. -/
theorem exec_readDone (hd : i.direction = .read) (hn : i.count.toNat = n) (hack : s.rfAck = true)
    (htx : s.txReady = true) (hv : n = 0 ∨ s.platform.valid i.space i.address = true) :
    ∃ t vs, exec i s = .next t ∧ t.cmd = i.selector ∧ ReadDone i.space n i.address s t vs := by
  have hexec := exec_read_eq_iterate hd hn hack htx hv
  obtain ⟨hcmd, haddr, -⟩ := readCommandFrame i s _ hd hexec
  have hleft := burstLeft_latchCommand i s
  rw [if_pos hd, hn, ← Nat.zero_add n] at hleft
  have hend := hleft.iterate_readOne n
  refine ⟨_, (latchCommand s i.selector i.count i.address).samples n, hexec, hcmd, ?_⟩
  constructor
  case boundary => exact hend.state
  case counted => exact (count_eq_zero_iff _).mpr hend.left
  case latched => exact haddr
  case buffered => exact iterate_readOne_data n _
  case samples => exact length_samples n _
  case accesses => simp [iterate_readOne_log]
  case sent => exact iterate_readOne_tx n _
  case drawn =>
    intro h
    simpa using samples_volatile n (s := latchCommand s i.selector i.count i.address) (by simpa using h)
  case stored =>
    intro c x h
    simpa using samples_cell n (s := latchCommand s i.selector i.count i.address) (by simpa using h)
  case queued =>
    intro h
    exact samples_fifo n (s := latchCommand s i.selector i.count i.address) (by simpa using h)

/-- A read command with a count at a refused address faults at its first access (R62, R82). -/
theorem exec_read_refused (hd : i.direction = .read) (hack : s.rfAck = true) (hn : 1 ≤ i.count.toNat)
    (hv : s.platform.valid i.space i.address = false) :
    exec i s = .fault (.platformFault i.space i.address .read) := by
  obtain ⟨n, hn⟩ := Nat.exists_eq_add_of_le' hn
  rw [exec_eq, if_pos hd, hn, readBurst_succ_sampled, latchCommand_space]
  simp [hack, hv]

/-- Both outcomes of a read command of `n` bytes. -/
theorem exec_read_samplesAndSends (hd : i.direction = .read) (hn : i.count.toNat = n) :
    (s.rfAck = true → s.txReady = true → (n = 0 ∨ s.platform.valid i.space i.address = true) →
      ∃ t vs, exec i s = .next t ∧ t.cmd = i.selector ∧ ReadDone i.space n i.address s t vs) ∧
    (s.rfAck = true → 1 ≤ n → s.platform.valid i.space i.address = false →
      exec i s = .fault (.platformFault i.space i.address .read)) :=
  ⟨exec_readDone hd hn, fun hack h1 => exec_read_refused hd hack (hn ▸ h1)⟩

end

/-! ## Write commands -/

section

variable {i : Instr} {n : Nat} {s : State}

/-- What a write command does with the payload that has arrived, acknowledged, before it goes on with the rest (R70,
R71). -/
theorem exec_write_eq_foldl {ds rest : List Byte} (hd : i.direction = .write) (hn : i.count.toNat = n + ds.length)
    (hack : s.rfAck = true) (hrx : s.rx = ds ++ rest)
    (hv : ds = [] ∨ s.platform.valid i.space i.address = true) :
    exec i s = writeBurst n (ds.foldl State.writeOne (latchCommand s i.selector i.count i.address)) := by
  rw [exec_eq, if_neg (by simp [hd]), hn]
  obtain rfl | hv := hv
  · rfl
  · exact writeBurst_eq_foldl ds n ⟨by simpa using hack, by simpa using hv⟩ (by simpa using hrx)

/-- Of a write command's count the payload written is done, the rest is left. -/
theorem burstLeft_foldl_writeOne {ds : List Byte} (hd : i.direction = .write) (hn : i.count.toNat = n + ds.length)
    (s : State) :
    BurstLeft .wrRecv n (ds.foldl State.writeOne (latchCommand s i.selector i.count i.address)) := by
  have hleft := burstLeft_latchCommand i s
  rw [if_neg (by simp [hd]), hn] at hleft
  exact hleft.foldl_writeOne

/-- A write command whose payload has arrived, acknowledged, completes with what R70 and R71 ask of it. -/
theorem exec_writeDone (hd : i.direction = .write) (hn : i.count.toNat = n) (hack : s.rfAck = true)
    (hrx : n ≤ s.rx.length) (hv : n = 0 ∨ s.platform.valid i.space i.address = true) :
    ∃ t, exec i s = .next t ∧ t.cmd = i.selector ∧ WriteDone i.space n i.address s t := by
  have hlen : (s.rx.take n).length = n := List.length_take_of_le hrx
  have hcount : i.count.toNat = 0 + (s.rx.take n).length := by omega
  have hexec := exec_write_eq_foldl hd hcount hack (List.take_append_drop n s.rx).symm
    (hv.imp_left fun h => by rw [h, List.take_zero])
  obtain ⟨hcmd, haddr, -⟩ := writeCommandFrame i s _ hd hexec
  obtain ⟨hleft, hend⟩ := burstLeft_foldl_writeOne hd hcount s
  refine ⟨_, hexec, hcmd, ?_⟩
  constructor
  case boundary => exact hend
  case counted => exact (count_eq_zero_iff _).mpr hleft
  case latched => exact haddr
  case buffered => exact foldl_writeOne_data _ _
  case consumed => rw [foldl_writeOne_rx, hlen, latchCommand_rx]
  case accesses => simp [foldl_writeOne_log]
  case stored =>
    intro c x h hwf
    simpa using foldl_writeOne_cell (s.rx.take n) (s := latchCommand s i.selector i.count i.address)
      (by simpa using h) (by simpa using hwf)
  case queued =>
    intro h
    exact foldl_writeOne_fifo (s.rx.take n) (s := latchCommand s i.selector i.count i.address) (by simpa using h)

/-- A write command with a count at a refused address faults with its first payload byte (R65, R82). -/
theorem exec_write_refused (hd : i.direction = .write) (hack : s.rfAck = true) (hn : 1 ≤ i.count.toNat)
    (hrx : s.rx ≠ []) (hv : s.platform.valid i.space i.address = false) :
    exec i s = .fault (.platformFault i.space i.address .write) := by
  obtain ⟨n, hn⟩ := Nat.exists_eq_add_of_le' hn
  obtain ⟨d, r, hrx⟩ := List.exists_cons_of_ne_nil hrx
  rw [exec_eq, if_neg (by simp [hd]), hn, writeBurst_succ_performed n (d := d) (r := r) (by simpa using hrx),
    latchCommand_space]
  simp [hack, hv]

/-- A write command whose payload is too short waits for the rest, with what did arrive written (R70, R71, R83). -/
theorem exec_write_short (hd : i.direction = .write) (hack : s.rfAck = true) (hrx : s.rx.length < i.count.toNat)
    (hv : s.platform.valid i.space i.address = true) :
    ∃ t, exec i s = .next t ∧ t.st = .wrRecv ∧ t.rx = [] ∧ t.cnt.toNat = i.count.toNat - s.rx.length ∧
      t.log = s.log ++ s.rx.map (Access.write i.space i.address) := by
  obtain ⟨m, hm⟩ := Nat.exists_eq_add_of_lt hrx
  have hcount : i.count.toNat = m + 1 + s.rx.length := by omega
  have hexec := exec_write_eq_foldl hd hcount hack (List.append_nil s.rx).symm (.inr hv)
  have hempty : (s.rx.foldl State.writeOne (latchCommand s i.selector i.count i.address)).rx = [] := by
    rw [foldl_writeOne_rx, latchCommand_rx, List.drop_length]
  obtain ⟨hleft, hst⟩ := burstLeft_foldl_writeOne hd hcount s
  exact ⟨_, hexec.trans (writeBurst_succ_nil m _ hempty), hst, hempty, by omega, by simp [foldl_writeOne_log]⟩

/-- The three outcomes of a write command of `n` bytes. -/
theorem exec_write_writesPayload (hd : i.direction = .write) (hn : i.count.toNat = n) :
    (s.rfAck = true → n ≤ s.rx.length → (n = 0 ∨ s.platform.valid i.space i.address = true) →
      ∃ t, exec i s = .next t ∧ t.cmd = i.selector ∧ WriteDone i.space n i.address s t) ∧
    (s.rfAck = true → 1 ≤ n → s.rx ≠ [] → s.platform.valid i.space i.address = false →
      exec i s = .fault (.platformFault i.space i.address .write)) ∧
    (s.rfAck = true → s.rx.length < n → s.platform.valid i.space i.address = true →
      ∃ t, exec i s = .next t ∧ t.st = .wrRecv ∧ t.rx = [] ∧ t.cnt.toNat = n - s.rx.length ∧
        t.log = s.log ++ s.rx.map (Access.write i.space i.address)) := by
  subst hn
  exact ⟨exec_writeDone hd rfl, exec_write_refused hd, exec_write_short hd⟩

end

/-! ## The four commands in both forms -/

/-- An extended header, its count-low byte and its address decode to the extended form (R44, R46). -/
theorem decode_extended_parts (sel : Selector) (c : BitVec 5) (l a : Byte) :
    decode [sel ++ 0#1 ++ c, l, a] = .ok (extendedInstr sel (c ++ l) a, []) := by
  have hd := decode_encodeExtended sel (c ++ l) a []
  have hhigh : (c ++ l).extractLsb' 8 5 = c := BitVec.extractLsb'_append_eq_left
  have hlow : (c ++ l).extractLsb' 0 8 = l := BitVec.extractLsb'_append_eq_right
  rwa [encodeExtended, hhigh, hlow] at hd

/-- The count of a small form, widened, is the number its five bits give (R46). -/
theorem toNat_setWidth_small (c : BitVec 5) : (c.setWidth 13).toNat = c.toNat :=
  BitVec.toNat_setWidth_of_le (by decide)

/-- Settles O26: in either form the command reads the I/O space with the count its form gives. -/
theorem readIO8SamplesAndSends : Obligations.ReadIO8SamplesAndSends := by
  refine ⟨fun c a => decode_encodeSmall 0b00#2 c a [], decode_extended_parts 0b00#2, ?_⟩
  rintro i n a s (⟨c, rfl, rfl⟩ | ⟨m, rfl, rfl⟩)
  · exact exec_read_samplesAndSends (i := .readIO8S c a) rfl (toNat_setWidth_small c)
  · exact exec_read_samplesAndSends (i := .readIO8X m a) rfl rfl

/-- Settles O27: in either form the command reads the Memory space with the count its form gives. -/
theorem readMem8SamplesAndSends : Obligations.ReadMem8SamplesAndSends := by
  refine ⟨fun c a => decode_encodeSmall 0b01#2 c a [], decode_extended_parts 0b01#2, ?_⟩
  rintro i n a s (⟨c, rfl, rfl⟩ | ⟨m, rfl, rfl⟩)
  · exact exec_read_samplesAndSends (i := .readMem8S c a) rfl (toNat_setWidth_small c)
  · exact exec_read_samplesAndSends (i := .readMem8X m a) rfl rfl

/-- Settles O28: in either form the command writes the I/O space with the count its form gives. -/
theorem writeIO8WritesItsPayload : Obligations.WriteIO8WritesItsPayload := by
  refine ⟨fun c a => decode_encodeSmall 0b10#2 c a [], decode_extended_parts 0b10#2, ?_⟩
  rintro i n a s (⟨c, rfl, rfl⟩ | ⟨m, rfl, rfl⟩)
  · exact exec_write_writesPayload (i := .writeIO8S c a) rfl (toNat_setWidth_small c)
  · exact exec_write_writesPayload (i := .writeIO8X m a) rfl rfl

/-- Settles O29: in either form the command writes the Memory space with the count its form gives. -/
theorem writeMem8WritesItsPayload : Obligations.WriteMem8WritesItsPayload := by
  refine ⟨fun c a => decode_encodeSmall 0b11#2 c a [], decode_extended_parts 0b11#2, ?_⟩
  rintro i n a s (⟨c, rfl, rfl⟩ | ⟨m, rfl, rfl⟩)
  · exact exec_write_writesPayload (i := .writeMem8S c a) rfl (toNat_setWidth_small c)
  · exact exec_write_writesPayload (i := .writeMem8X m a) rfl rfl

/-! ## A write read back -/

section

variable {n : Nat} {ds : List Byte} (hlen : ds.length = n) (e : Byte)

include hlen

/-- Copies of a list's last element, one for each element, are that element. -/
theorem getLast?_of_mem_replicate {b : Byte} (h : b ∈ List.replicate n (ds.getLast?.getD e)) :
    ds.getLast? = some b := by
  obtain ⟨hne, rfl⟩ := List.mem_replicate.mp h
  have hds : ds ≠ [] := fun hnil => hne (by rw [← hlen, hnil, List.length_nil])
  rw [List.getLast?_eq_some_getLast hds]
  rfl

/-- Copies of a list's last element are the list exactly where it has one element at most or all are equal (R72). -/
theorem replicate_getLast_eq_iff :
    List.replicate n (ds.getLast?.getD e) = ds ↔ n ≤ 1 ∨ ∀ d ∈ ds, ds.getLast? = some d := by
  constructor
  · intro h
    exact .inr fun d hd => getLast?_of_mem_replicate hlen e (h.symm ▸ hd)
  · subst hlen
    rintro (hle | hall)
    · match ds, hle with
      | [], _ => rfl
      | [d], _ => rfl
    · refine (List.eq_replicate_iff.mpr ⟨rfl, fun d hd => ?_⟩).symm
      rw [hall d hd]
      rfl

end

/-- Settles O31: the read finds the storage byte, or the queue, as the write left it. -/
theorem writeThenReadBack : Obligations.WriteThenReadBack := by
  intro w r s n hw hr hspace haddr hwn hrn hack htx hrx hv
  have hlen : (s.rx.take n).length = n := List.length_take_of_le hrx
  obtain ⟨t, hwrite, -, hdone⟩ := exec_writeDone hw hwn hack hrx (.inr hv)
  obtain ⟨-, -, -, htx', htxReady, -, hack', hplatform, -⟩ := writeCommandFrame w s t hw hwrite
  obtain ⟨u, vs, hread, -, hback⟩ := exec_readDone (s := t) hr hrn (hack'.trans hack) (htxReady.trans htx)
    (.inr (by rw [hplatform, hspace, haddr, hv]))
  rw [hspace, haddr] at hback
  refine ⟨t, u, vs, hwrite, hread, htx' ▸ hback.sent, hback.samples, fun c x hcell hwf => ?plain,
    fun hfifo hempty => ?queue⟩
  case plain =>
    have hvs := hback.stored c x (hplatform ▸ hcell)
    rw [hdone.stored c x hcell hwf] at hvs
    rw [hvs]
    exact ⟨fun b => getLast?_of_mem_replicate hlen _, replicate_getLast_eq_iff hlen _⟩
  case queue =>
    have hqueue : t.fifo = s.rx.take n := by rw [hdone.queued hfifo, hempty, List.nil_append]
    obtain ⟨hvs, -⟩ := hback.queued (hplatform ▸ hfifo) (by rw [hqueue, hlen])
    rw [hvs, hqueue, List.take_of_length_le hlen.le]

end Sys2Proof.Machine
end

section
/-! PROOFS. The unscheduled step where no command waits whole (O40), the stop of a run (O54), and the completion of a
finite stream (O56). -/

namespace Sys2Proof.Machine

/-! ## The unscheduled step -/

/-- Settles O40: a command is fetched only at a released boundary where it has arrived whole. -/
theorem stepTakesOneRowOtherwise : Obligations.StepTakesOneRowOtherwise := by
  intro s hscript h
  refine step_of_fetch_none hscript (Option.eq_none_iff_forall_ne_some.mpr fun ⟨i, t⟩ hfetch => ?_)
  obtain ⟨hrst, hst, rest, hd, -⟩ := fetch_eq_some.mp hfetch
  obtain hrst' | hst' | ⟨e, he⟩ := h
  · rw [hrst] at hrst'
    cases hrst'
  · exact hst' hst
  · rw [hd] at he
    cases he

/-! ## Stopped runs -/

/-- A machine is stopped where nothing is scheduled and its block waits (R74). -/
theorem stopped_iff {s : State} : s.stopped = true ↔ s.script = [] ∧ s.enabled = false := by
  simp [State.stopped]

theorem idle_iff {s : State} : s.idle = true ↔ s.stopped = true ∧ s.st = .hdr ∧ s.rx = [] := by
  simp [State.idle, and_assoc]

/-- With reset released the stop at the boundary is the idle one, since a byte pending would be taken (R74). -/
theorem idle_iff_of_stopped {s : State} (h : s.stopped = true) (hrst : s.rst = false) :
    s.idle = true ↔ s.st = .hdr := by
  refine idle_iff.trans ⟨fun ⟨_, hst, _⟩ => hst, fun hst => ⟨h, hst, ?_⟩⟩
  simpa [enabled_eq, hrst, hst] using (stopped_iff.mp h).2

/-- The stop anywhere else is the hung one (R74). -/
theorem hung_iff_of_stopped {s : State} (h : s.stopped = true) : s.hung = true ↔ s.st ≠ .hdr := by
  simp [State.hung, h]

/-- Inside a command a block that is not enabled waits for a byte, for the transport or for the platform (R22). -/
theorem wait_of_disabled {s : State} (he : s.enabled = false) (hrst : s.rst = false) (hst : s.st ≠ .hdr) :
    (s.st = .cntLo ∨ s.st = .addr ∨ s.st = .wrRecv) ∧ s.rx = [] ∨ s.st = .rdSend ∧ s.txReady = false ∨
      (s.st = .rdSample ∨ s.st = .wrWrite) ∧ s.rfAck = false := by
  rw [enabled_eq, hrst] at he
  cases h : s.st
  case hdr => exact absurd h hst
  case cntLo | addr | wrRecv => exact .inl ⟨by simp, by simpa [h] using he⟩
  case rdSend => exact .inr (.inl ⟨rfl, by simpa [h] using he⟩)
  case rdSample | wrWrite => exact .inr (.inr ⟨by simp, by simpa [h] using he⟩)

/-- From the round at which it stops a run stays where it is (R74). -/
theorem StopsAt.runRounds_eq {e : Environment} {s t : State} {k : Nat} (h : StopsAt e s k t) {j : Nat} (hj : k ≤ j) :
    runRounds e j s = .next t := by
  induction j, hj using Nat.le_induction with
  | base => exact h.reached
  | succ j hj ih => rw [runRounds_succ _ _ ih, h.silent j hj, envRound_nil, step_of_stopped h.stopped]

/-- Settles O54: a silent round is one step, which a stopped machine does not take; its state names the wait. -/
theorem stoppedRunsStayStopped : Obligations.StoppedRunsStayStopped := by
  intro e s k t h
  obtain ⟨-, hdisabled⟩ := stopped_iff.mp h.stopped
  have hhung := hung_iff_of_stopped h.stopped
  refine ⟨fun j hj => h.runRounds_eq hj, fun hrst => ⟨idle_iff_of_stopped h.stopped hrst, hhung, fun hidle => ?empty,
    fun ht => wait_of_disabled hdisabled hrst (hhung.mp ht)⟩⟩
  case empty =>
    obtain ⟨-, -, hrx⟩ := idle_iff.mp hidle
    exact hrx

/-! ## A finite stream -/

/-- A run of `k` rounds depends on no later round. -/
theorem runRounds_congr {e e' : Environment} (s : State) {k : Nat} (h : ∀ j < k, e j = e' j) :
    runRounds e k s = runRounds e' k s := by
  induction k with
  | zero => rfl
  | succ k ih =>
    have hprefix := ih fun j hj => h j (Nat.lt_succ_of_lt hj)
    simp only [runRounds, hprefix, h k (Nat.lt_succ_self k)]

/-- The first `2 n` rounds of host and core depend on the host's first `n` turns only. -/
theorem hostInput_congr {f g : Nat → List Byte} {n : Nat} (h : ∀ k < n, f k = g k) :
    ∀ j < 2 * n, hostInput f j = hostInput g j := by
  intro j hj
  simp only [hostInput, h (j / 2) (by omega)]

/-- Once the host has nothing more to send, no round moves anything. -/
theorem hostInput_silent {f : Nat → List Byte} {n : Nat} (h : ∀ k, n ≤ k → f k = []) :
    ∀ j, 2 * n ≤ j → hostInput f j = [] := by
  intro j hj
  simp only [hostInput, h (j / 2) (by omega), List.map_nil, ite_self]

/-- A ready boundary with no byte pending, after which the host sends nothing, completes the run (R74). -/
theorem completes_of_ready {f : Nat → List Byte} {s t : State} {n : Nat}
    (hrun : runRounds (hostInput f) (2 * n) s = .next t) (ht : t.Ready) (hrx : t.rx = [])
    (hf : ∀ k, n ≤ k → f k = []) : Completes (hostInput f) s := by
  have hidle := ht.idle hrx
  exact ⟨2 * n, t, ⟨hrun, (idle_iff.mp hidle).1, hostInput_silent hf⟩, hidle⟩

/-- Settles O56: until the host falls silent, the run is that of the endless stream that goes on with `ts`'s first
transaction. -/
theorem finiteStreamCompletes : Obligations.FiniteStreamCompletes := by
  intro ts s hready hrx hts
  have hsilent : ∀ k, ts.length ≤ k → (ts[k]?.map Transaction.bytes).getD [] = [] := fun k hk => by
    rw [List.getElem?_eq_none hk]
    rfl
  cases ts with
  | nil => exact completes_of_ready (n := 0) rfl hready hrx hsilent
  | cons τ ts =>
    have hmem : ∀ k : Nat, (τ :: ts)[k]?.getD τ ∈ τ :: ts := fun k => by
      cases h : (τ :: ts)[k]? with
      | none => exact List.mem_cons_self
      | some σ => exact List.mem_of_getElem? h
    obtain ⟨t, hrun, ht, -, hempty, -⟩ := runRounds_serves hready hrx (fun k => hts _ (hmem k)) (τ :: ts).length
    have hagree : ∀ k < (τ :: ts).length,
        ((τ :: ts)[k]?.map Transaction.bytes).getD [] = ((τ :: ts)[k]?.getD τ).bytes := fun k hk => by
      rw [List.getElem?_eq_getElem hk]
      rfl
    exact completes_of_ready ((runRounds_congr s (hostInput_congr hagree)).trans hrun) ht hempty hsilent

end Sys2Proof.Machine
end

section
/-! PROOFS. Faults, truncated input and reset (60_exceptions.md): the block's step in a fault (O37), the states that
wait for a byte that does not come (O36), and the block under reset (O47). -/

namespace Sys2Proof.Machine

/-! ## Faults -/

/-- An access faults only where the register map refuses it, with the fault it was asked for (R82). -/
theorem access_eq_fault {v : Bool} {t : State} {f g : Fault}
    (h : (if v then .next t else .fault g : Result) = .fault f) : v = false ∧ f = g := by
  cases v <;> cases h
  exact ⟨rfl, rfl⟩

theorem enabled_of_fsmStep_fault {s : State} {f : Fault} (h : fsmStep s = .fault f) : s.enabled = true := by
  cases he : s.enabled
  case false => cases (fsmStep_of_disabled he).symm.trans h
  case true => rfl

/-- The block's fault names the access its state performs, at an address the platform refuses (R82). -/
theorem fsmStep_fault {s : State} {f : Fault} (h : fsmStep s = .fault f) :
    s.platform.valid s.space s.addr = false ∧
      (s.st = .rdSample ∧ f = .platformFault s.space s.addr .read ∨
        s.st = .wrWrite ∧ f = .platformFault s.space s.addr .write) := by
  have he := enabled_of_fsmStep_fault h
  have hrst := rst_of_enabled he
  cases hst : s.st
  case hdr | cntLo | addr | wrRecv =>
    obtain ⟨t, ht⟩ := fsmStep_of_rxReady (s := s) (by simp [State.rxReady, hst])
    cases ht.symm.trans h
  case rdSend =>
    have htx : s.txReady = true := by simpa [enabled_eq, hrst, hst] using he
    cases (fsmStep_rdSend hrst hst htx).symm.trans h
  case rdSample =>
    have hack : s.rfAck = true := by simpa [enabled_eq, hrst, hst] using he
    obtain ⟨hv, hf⟩ := access_eq_fault ((fsmStep_rdSample hrst hst hack).symm.trans h)
    exact ⟨hv, .inl ⟨rfl, hf⟩⟩
  case wrWrite =>
    have hack : s.rfAck = true := by simpa [enabled_eq, hrst, hst] using he
    obtain ⟨hv, hf⟩ := access_eq_fault ((fsmStep_wrWrite hrst hst hack).symm.trans h)
    exact ⟨hv, .inr ⟨rfl, hf⟩⟩

/-- Settles O37: the block's fault taken apart, the two accesses by the register map's answer, and a fault of any step
being at a refused address (O38). -/
theorem platformFaultWhereRefused : Obligations.PlatformFaultWhereRefused := by
  refine ⟨fun s f => fsmStep_fault, fun s hrst hack hv => ⟨fun hst => ?read, fun hst => ?write⟩,
    fun s hvalid f hf => ?unrefused⟩
  case read => rw [fsmStep_rdSample hrst hst hack, hv, if_neg Bool.false_ne_true]
  case write => rw [fsmStep_wrWrite hrst hst hack, hv, if_neg Bool.false_ne_true]
  case unrefused =>
    obtain ⟨sp, a, -, -, hv⟩ := (stepStopsOnlyAtRefusedAddress s).2 f hf
    exact Bool.false_ne_true (hv.symm.trans (hvalid sp a))

/-! ## Truncated input -/

/-- A state that waits for a byte is not enabled until one arrives (R22). -/
theorem enabled_of_rx_nil {s : State} (hst : s.rxReady = true) (hrx : s.rx = []) : s.enabled = false :=
  (blockHoldsExactlyWhileWaiting s).mp (fsmStep_of_rx_nil hst hrx)

/-- Settles O36: inside a command the wait for a byte that does not come is a hang. -/
theorem truncatedInputHangs : Obligations.TruncatedInputHangs := by
  rintro s hst hrx hscript -
  have hready : s.rxReady = true := by rcases hst with hst | hst | hst <;> rw [State.rxReady, hst]
  have hinside : s.st ≠ .hdr := by rcases hst with hst | hst | hst <;> rw [hst] <;> decide
  have hstopped : s.stopped = true := stopped_iff.mpr ⟨hscript, enabled_of_rx_nil hready hrx⟩
  have hhung := (hung_iff_of_stopped hstopped).mpr hinside
  exact ⟨hhung, run_of_hung hhung⟩

/-! ## Reset -/

/-- Under reset no state's handshake counts (R86). -/
theorem enabled_of_rst {s : State} (hrst : s.rst = true) : s.enabled = false := by
  rw [enabled_eq, hrst, Bool.not_true, Bool.false_and]

/-- Settles O47: under reset the block is disabled, so the unscheduled machine is stopped; the release is its move. -/
theorem resetHasPriority : Obligations.ResetHasPriority := by
  refine ⟨fun s hrst => ?held, fun _ ms => step_scheduled ms⟩
  have hdisabled := enabled_of_rst hrst
  exact ⟨fsmStep_of_disabled hdisabled, hdisabled,
    fun hscript => step_of_stopped (stopped_iff.mpr ⟨hscript, hdisabled⟩)⟩

end Sys2Proof.Machine
end

section
/-! PROOFS. External reset (70_reset_and_hazards.md): what it makes of the access or the send in flight, and what it
leaves (O46). -/

namespace Sys2Proof.Machine

/-! ## What is in flight, and the schedule -/

theorem afterRead_setScript (s : State) (ms : List Move) (sp : Space) (a : Addr8) :
    (s.setScript ms).afterRead sp a = (s.afterRead sp a).setScript ms := by
  unfold State.afterRead
  rw [setScript_platform]
  split <;> rfl

theorem afterWrite_setScript (s : State) (ms : List Move) (sp : Space) (a : Addr8) (v : Byte) :
    (s.setScript ms).afterWrite sp a v = (s.afterWrite sp a v).setScript ms := by
  unfold State.afterWrite
  rw [setScript_platform]
  split
  · rfl
  · split <;> rfl

/-- What becomes of what is in flight does not depend on the schedule. -/
theorem settleInFlight_setScript (s : State) (ms : List Move) (p : Bool) :
    settleInFlight (s.setScript ms) p = (settleInFlight s p).map (State.setScript · ms) := by
  rw [settleInFlight_eq, settleInFlight_eq, afterRead_setScript, afterWrite_setScript]
  simp only [apply_ite (Except.map (State.setScript · ms))]
  rfl

/-! ## What is in flight, case by case -/

section
variable {s : State}

theorem settleInFlight_of_nothing {p : Bool}
    (h : p = false ∨ s.st ≠ .rdSample ∧ s.st ≠ .rdSend ∧ s.st ≠ .wrWrite) : settleInFlight s p = .ok s := by
  rw [settleInFlight_eq]
  obtain rfl | ⟨hsample, hsend, hwrite⟩ := h
  · simp
  · simp [hsample, hsend, hwrite]

theorem settleInFlight_rdSend (hst : s.st = .rdSend) :
    settleInFlight s true = .ok { s with tx := s.tx ++ [s.data] } := by
  simp [settleInFlight_eq, hst, State.setTx]

theorem settleInFlight_rdSample (hst : s.st = .rdSample) :
    settleInFlight s true =
      if s.platform.valid s.space s.addr then
        .ok { s.afterRead s.space s.addr with
          log := s.log ++ [.read s.space s.addr (s.sampleValue s.space s.addr)] }
      else .error (.platformFault s.space s.addr .read) := by
  simp [settleInFlight_eq, hst, State.record]

theorem settleInFlight_wrWrite (hst : s.st = .wrWrite) :
    settleInFlight s true =
      if s.platform.valid s.space s.addr then
        .ok { s.afterWrite s.space s.addr s.data with log := s.log ++ [.write s.space s.addr s.data] }
      else .error (.platformFault s.space s.addr .write) := by
  simp [settleInFlight_eq, hst, State.record]

end

/-! ## The scheduled reset -/

section
variable {s : State} {d : ResetDraw} {ms : List Move} (hscript : s.script = .assertReset d :: ms)
include hscript

/-- A reset resets the registers and the transport of the state with what was in flight settled (R92, R93). -/
theorem step_assertReset_ok {u : State} (h : settleInFlight s d.performed = .ok u) :
    ∃ t, step s = .next t ∧ ResetDone d ms u t := by
  refine ⟨(((u.setScript ms).resetChannel d).resetRegisters).setRst true, ?answer, ?done⟩
  case answer =>
    rw [step_scheduled ms hscript, applyMove, assertReset, settleInFlight_setScript, h]
    rfl
  case done => constructor <;> rfl

theorem step_assertReset_error {f : Fault} (h : settleInFlight s d.performed = .error f) : step s = .fault f := by
  rw [step_scheduled ms hscript, applyMove, assertReset, settleInFlight_setScript, h]
  rfl

end

/-- Settles O46: each case of what is in flight, handed to the step of the reset. -/
theorem externalResetAbandonsCommand : Obligations.ExternalResetAbandonsCommand := by
  refine fun s d ms hscript => ⟨fun h => ?nothing, fun hp hst => ?send,
    fun hp hst => ⟨fun hv => ?read, fun hv => ?readRefused⟩,
    fun hp hst => ⟨fun hv => ?write, fun hv => ?writeRefused⟩⟩
  case nothing => exact step_assertReset_ok hscript (settleInFlight_of_nothing h)
  case send => exact step_assertReset_ok hscript (hp ▸ settleInFlight_rdSend hst)
  case read =>
    obtain ⟨t, ht, hdone⟩ :=
      step_assertReset_ok hscript (hp ▸ (settleInFlight_rdSample hst).trans (if_pos hv))
    exact ⟨t, ht, hdone.io.trans afterRead_io, hdone.mem.trans afterRead_mem, hdone⟩
  case readRefused =>
    exact step_assertReset_error hscript (hp ▸ (settleInFlight_rdSample hst).trans (if_neg (Bool.eq_false_iff.mp hv)))
  case write => exact step_assertReset_ok hscript (hp ▸ (settleInFlight_wrWrite hst).trans (if_pos hv))
  case writeRefused =>
    exact step_assertReset_error hscript (hp ▸ (settleInFlight_wrWrite hst).trans (if_neg (Bool.eq_false_iff.mp hv)))

end Sys2Proof.Machine
end
